-- ==== Sys2Proof/Word.lean ====
section
/-! DEFINITION. The two word types of the machine: the 8-bit data byte and the 16-bit address (00_scope.md section 6). -/

namespace Sys2Proof

/-- `u8`: an unsigned 8-bit value. -/
abbrev Byte := BitVec 8

/-- `u16`: an unsigned 16-bit value, an address. -/
abbrev Addr := BitVec 16

end Sys2Proof
end

