-- ==== Sys2Proof/Machine/Bits.lean ====
section
/-! DEFINITION. Byte order, extension and page helpers (00_scope.md section 6, 20_memory.md R31). -/

namespace Sys2Proof.Machine

/-- `{hi, lo}` = hi * 256 + lo (20_memory.md R28). -/
def joinBytes (hi lo : Byte) : Addr := hi ++ lo

/-- `v[7:0]` of a word. -/
def lowByte (w : Addr) : Byte := w.extractLsb' 0 8

/-- `v[15:8]` of a word: its page. -/
def highByte (w : Addr) : Byte := w.extractLsb' 8 8

/-- `zext_16(b)`. -/
def zeroExtend16 (b : Byte) : Addr := b.setWidth 16

/-- `sext_16(b)`: the displacement of a branch (30_encoding.md R44). -/
def signExtend16 (b : Byte) : Addr := b.signExtend 16

/-- Two addresses lie in different pages: their bits 15 to 8 differ (00_scope.md section 7). -/
def pageDiffers (p q : Addr) : Bool := highByte p != highByte q

/-- `0x0100 + S`: the address the stack pointer designates (10_state.md R8). -/
def stackAddr (sp : Byte) : Addr := 0x0100#16 + zeroExtend16 sp

end Sys2Proof.Machine
end

