-- ==== Sys2Proof/Config.lean ====
section
/-! DEFINITION. The implementation parameters of 00_scope.md R5. They are configuration: no step changes them (10_state.md R6). BUDGET_BITS is taken as unbounded (log 16). The spec leaves no value of an instruction open, so there is no free value here. -/

namespace Sys2Proof

/-- `TABLE` (R4): which opcode bytes have a dispatch entry. -/
inductive Table where
  /-- The four opcodes of 30_encoding.md R45. -/
  | base
  /-- The 151 opcodes of 30_encoding.md R46. -/
  | ext
  deriving DecidableEq, Repr

/-- `UNKNOWN_POLICY` (42_dispatch_loop.md R77): what follows the slot of an unknown opcode. -/
inductive UnknownPolicy where
  /-- The loop goes on. -/
  | lenient
  /-- Execute ends. -/
  | fatal
  deriving DecidableEq, Repr

/-- `RESET_PC_MODE` (70_reset_and_hazards.md R169). -/
inductive ResetPcMode where
  /-- The first opcode after Reset is fetched at 0xFFFC. -/
  | literal
  /-- The first Execute after Reset loads PC from the word at 0xFFFC. -/
  | vector
  deriving DecidableEq, Repr

/-- `STACK_CHECK` (44_jsr_stack.md R94, 93_implementation_defined.md G8). -/
inductive StackCheck where
  /-- S wraps silently. -/
  | off
  /-- The wrapping step is refused (log 8). -/
  | on
  deriving DecidableEq, Repr

/-- `DECIMAL_POLICY` (46_ext_arith_logic.md R109). -/
inductive DecimalPolicy where
  /-- ADC and SBC are binary whatever D holds. -/
  | ignore
  /-- ADC and SBC have no meaning when D = 1 (log 9). -/
  | refuse
  deriving DecidableEq, Repr

/-- The parameters of one machine (R5). -/
structure Config where
  table         : Table
  unknownPolicy : UnknownPolicy
  resetPcMode   : ResetPcMode
  stackCheck    : StackCheck
  decimalPolicy : DecimalPolicy
  deriving DecidableEq, Repr

/-- Every parameter at the default the spec gives it (R5). -/
def Config.specDefault : Config :=
  { table := .base, unknownPolicy := .lenient, resetPcMode := .literal,
    stackCheck := .off, decimalPolicy := .ignore }

/-- The parameters of `State.reset`: the spec's defaults with the full opcode table.
DESIGN CHOICE (log 1): TABLE = EXT, so that every row of the opcode table runs. -/
def Config.extended : Config := { Config.specDefault with table := .ext }

end Sys2Proof
end

