-- ==== Sys2Proof/Machine/State.lean ====
section
/-! DEFINITION. The state of the machine as plain data (10_state.md R6), its reset value (10_state.md R21), and the reasons a step can stop. -/

namespace Sys2Proof.Machine

/-- The seven status flags, seven independent single-bit fields (10_state.md R11). -/
structure Flags where
  n : Bool
  v : Bool
  b : Bool
  d : Bool
  i : Bool
  z : Bool
  c : Bool
  deriving DecidableEq, Repr

/-- `RUN`: the state of the dispatch loop (10_state.md R18, 42_dispatch_loop.md R75). A slot is one
step, so a machine rests only in idle, fetching and halted (log 6). -/
inductive RunState where
  | idle
  | fetching
  | dispatching
  | executing
  | halted
  deriving DecidableEq, Repr

/-- Memory: the listed cells, addresses strictly rising; an unlisted cell holds 0x00, its reset
contents (20_memory.md R23, R25; log 12). -/
structure Memory where
  cells : List Host.Cell
  deriving DecidableEq, Repr

/-- The host's operations (00_scope.md R3). -/
inductive HostOp where
  /-- `Reset()` (70_reset_and_hazards.md R168). -/
  | reset
  /-- A direct write of one byte of Memory (20_memory.md R41). -/
  | poke (addr : Addr) (value : Byte)
  /-- `Execute(budget)` (42_dispatch_loop.md R73). -/
  | execute (budget : Int)
  deriving DecidableEq, Repr

/-- The whole state (10_state.md R6), and three fields of the model: `budget`, the argument of the
last Execute (42_dispatch_loop.md R74); `cfg`, the parameters (log 2); `script`, the host operations
that are still to come, oldest first (log 3). -/
structure State where
  /-- PC (R9). -/
  pc : Addr
  /-- S, the stack pointer (R8). -/
  sp : Byte
  /-- A (R7). -/
  a : Byte
  /-- X (R7). -/
  x : Byte
  /-- Y (R7). -/
  y : Byte
  /-- P (R11). -/
  p : Flags
  /-- CYC (R17). -/
  cyc : Int
  /-- The argument of the last Execute. -/
  budget : Int
  /-- RUN (R18). -/
  run : RunState
  /-- DIAG, oldest first (R19). -/
  diag : List Byte
  /-- Mem (R16). -/
  mem : Memory
  /-- The parameters of 00_scope.md R5. -/
  cfg : Config
  /-- The host operations still to come. -/
  script : List HostOp
  deriving DecidableEq, Repr

/-- The faults that stop the machine: there are none (60_exceptions.md R154, R158), so this type is
empty. UnknownOpcode and BudgetExhaustion, the only two conditions the spec names, both lead to a
next state. -/
inductive Fault where
  deriving DecidableEq, Repr

/-- The reasons the model gives no meaning to a step. The last two arise only under parameter values
that are not the spec's defaults. -/
inductive Refusal where
  /-- Raised by an arm of `exec` whose instruction has no meaning yet (none has this now): safe. -/
  | notModelled (mnemonic : String)
  /-- Raised by ADC and SBC when DECIMAL_POLICY = refuse and D = 1: "a model gives ADC no meaning
  when D = 1" (46_ext_arith_logic.md R109, log 9): safe. -/
  | decimalMode
  /-- Raised by a push or pull that wraps S when STACK_CHECK = on: "a model that offers it should
  `refuse` the wrapping step" (93_implementation_defined.md G8, log 8): safe. -/
  | stackWrap
  deriving DecidableEq, Repr

/-- What a meaning answers. -/
abbrev Result := Host.Outcome State Fault Refusal

/-- All seven flags 0 (10_state.md R21). -/
def Flags.clear : Flags :=
  { n := false, v := false, b := false, d := false, i := false, z := false, c := false }

/-- The machine right after reset (10_state.md R21, 70_reset_and_hazards.md R168). DESIGN CHOICE: the
spec gives no reset value for `cyc` and `budget` (log 5), the parameters (log 1) and `script` (log 3). -/
def State.reset : State :=
  { pc := 0xFFFC#16, sp := 0x00#8, a := 0x00#8, x := 0x00#8, y := 0x00#8, p := Flags.clear,
    cyc := 0, budget := 0, run := .idle, diag := [], mem := { cells := [] },
    cfg := Config.extended, script := [] }

end Sys2Proof.Machine
end

