-- ==== Sys2Proof/Machine/Memory.lean ====
section
/-! DEFINITION. Memory as a list of cells in one canonical form: reading a byte, writing a byte, the form (20_memory.md R23 to R27). -/

namespace Sys2Proof.Machine

/-- What an unlisted cell reads as: every cell is 0 after Reset (20_memory.md R25). -/
def Memory.unlisted : Byte := 0x00#8

/-- The value listed at an address, or the unlisted value. -/
def cellsRead : List Host.Cell → Nat → Byte
  | [], _ => Memory.unlisted
  | (k, v) :: rest, addr => if k = addr then v else cellsRead rest addr

/-- A cell put in front of the list, unless it holds the unlisted value. -/
def cellsCons (addr : Nat) (value : Byte) (rest : List Host.Cell) : List Host.Cell :=
  if value = Memory.unlisted then rest else (addr, value) :: rest

/-- One cell replaced, at its place in the rising list. -/
def cellsWrite : List Host.Cell → Nat → Byte → List Host.Cell
  | [], addr, value => cellsCons addr value []
  | (k, v) :: rest, addr, value =>
    if addr < k then cellsCons addr value ((k, v) :: rest)
    else if addr = k then cellsCons addr value rest
    else (k, v) :: cellsWrite rest addr value

/-- Addresses strictly rising from `low`, all below 65536, and no entry with the unlisted value. -/
def cellsWf : Nat → List Host.Cell → Bool
  | _, [] => true
  | low, (k, v) :: rest =>
    decide (low ≤ k) && decide (k < 65536) && (v != Memory.unlisted) && cellsWf (k + 1) rest

/-- The byte at an address: `Mem[addr]` (R26). -/
def Memory.read (m : Memory) (addr : Nat) : Byte := cellsRead m.cells addr

/-- `Mem[addr] <- value` (R27). -/
def Memory.write (m : Memory) (addr : Nat) (value : Byte) : Memory :=
  { cells := cellsWrite m.cells addr value }

/-- The canonical form of memory (log 12). -/
def Memory.wf (m : Memory) : Bool := cellsWf 0 m.cells

end Sys2Proof.Machine
end

