-- ==== Sys2Proof/Machine/Ops.lean ====
section
/-! DEFINITION. The named operations over registers, cycles, memory, the stack and the flag byte; the software-interrupt sequence and the return from it; the unknown-opcode diagnostic. -/

namespace Sys2Proof.Machine

/-! ### Registers and cycles -/

/-- `PC <- v`. -/
def State.setPc (s : State) (v : Addr) : State := { s with pc := v }

/-- `S <- v`. -/
def State.setSp (s : State) (v : Byte) : State := { s with sp := v }

/-- `A <- v`. -/
def State.setA (s : State) (v : Byte) : State := { s with a := v }

/-- `X <- v`. -/
def State.setX (s : State) (v : Byte) : State := { s with x := v }

/-- `Y <- v`. -/
def State.setY (s : State) (v : Byte) : State := { s with y := v }

/-- All the flags at once. -/
def State.setP (s : State) (v : Flags) : State := { s with p := v }

/-- `RUN <- v`. -/
def State.setRun (s : State) (v : RunState) : State := { s with run := v }

/-- `Charge(n)`: `CYC <- CYC - n`, never wrapping (41_flag_rules.md R72). -/
def State.charge (s : State) (n : Nat) : State := { s with cyc := s.cyc - n }

/-! ### Memory, uncharged: the Memory component's own operations -/

/-- `MemRead(addr, 1)` (20_memory.md R26). -/
def memRead (s : State) (addr : Addr) : Byte := s.mem.read addr.toNat

/-- `MemWrite(addr, 1, v)` (20_memory.md R27). -/
def memWrite (s : State) (addr : Addr) (v : Byte) : State :=
  { s with mem := s.mem.write addr.toNat v }

/-- `MemRead(addr, 2)`: low byte at `addr`, high byte at `addr + 1` modulo 65536 (20_memory.md R28). -/
def memReadWord (s : State) (addr : Addr) : Addr :=
  joinBytes (memRead s (addr + 1)) (memRead s addr)

/-- `MemWrite(addr, 2, v)`: the low byte first (20_memory.md R29). -/
def memWriteWord (s : State) (addr : Addr) (v : Addr) : State :=
  memWrite (memWrite s addr (lowByte v)) (addr + 1) (highByte v)

/-! ### The Core's charged primitives -/

/-- `FetchByte()` (40_fetch_addressing.md R50). -/
def fetchByte (s : State) : Byte × State :=
  (memRead s s.pc, (s.setPc (s.pc + 1)).charge 1)

/-- `FetchWord()`: two byte fetches, the low byte first (40_fetch_addressing.md R51). -/
def fetchWord (s : State) : Addr × State :=
  let lo := fetchByte s
  let hi := fetchByte lo.2
  (joinBytes hi.1 lo.1, hi.2)

/-- `ReadByte(addr)` (40_fetch_addressing.md R52). -/
def readByte (s : State) (addr : Addr) : Byte × State := (memRead s addr, s.charge 1)

/-- `WriteByte(addr, v)` (40_fetch_addressing.md R53). -/
def writeByte (s : State) (addr : Addr) (v : Byte) : State := (memWrite s addr v).charge 1

/-- The one internal cycle of an instruction without operand bytes (40_fetch_addressing.md R61). -/
def implied (s : State) : State := s.charge 1

/-! ### The stack: ascending, within page 1 -/

/-- `PushByte(v)` (44_jsr_stack.md R90). -/
def pushByte (s : State) (v : Byte) : State :=
  (writeByte s (stackAddr s.sp) v).setSp (s.sp + 1)

/-- `PullByte()` (44_jsr_stack.md R91). -/
def pullByte (s : State) : Byte × State :=
  let t := s.setSp (s.sp - 1)
  readByte t (stackAddr t.sp)

/-- `PushWord(w)`: the low byte, then the high byte in the next slot of page 1 (44_jsr_stack.md R92). -/
def pushWord (s : State) (w : Addr) : State := pushByte (pushByte s (lowByte w)) (highByte w)

/-- `PullWord()`: the high byte, then the low byte (44_jsr_stack.md R93). -/
def pullWord (s : State) : Addr × State :=
  let hi := pullByte s
  let lo := pullByte hi.2
  (joinBytes hi.1 lo.1, lo.2)

/-- Pushing `n` bytes carries S past 0xFF (44_jsr_stack.md R94). -/
def pushWraps (s : State) (n : Nat) : Bool := decide (256 ≤ s.sp.toNat + n)

/-- Pulling `n` bytes carries S past 0x00 (44_jsr_stack.md R94). -/
def pullWraps (s : State) (n : Nat) : Bool := decide (s.sp.toNat < n)

/-- With STACK_CHECK = on a wrapping step is refused before it has any effect (log 8); otherwise the
step is `k`. -/
def stackGuard (s : State) (wraps : Bool) (k : Result) : Result :=
  if s.cfg.stackCheck = .on ∧ wraps = true then .refused .stackWrap else k

/-! ### The flags as one byte -/

/-- `Pack()` = {N, V, 1, B, D, I, Z, C} (10_state.md R13). -/
def Flags.pack (p : Flags) : Byte :=
  BitVec.ofBool p.n ++ BitVec.ofBool p.v ++ 1#1 ++ BitVec.ofBool p.b ++
    BitVec.ofBool p.d ++ BitVec.ofBool p.i ++ BitVec.ofBool p.z ++ BitVec.ofBool p.c

/-- `Unpack(b)`: N, V, D, I, Z, C from bits 7, 6, 3, 2, 1, 0; bits 5 and 4 ignored, so P.B keeps its
value (10_state.md R13). -/
def Flags.unpack (old : Flags) (byte : Byte) : Flags :=
  { n := byte.getLsbD 7, v := byte.getLsbD 6, b := old.b, d := byte.getLsbD 3,
    i := byte.getLsbD 2, z := byte.getLsbD 1, c := byte.getLsbD 0 }

/-- The byte PHP and BRK push: `Pack() or 0x10` (48_ext_control.md R140, 49_ext_stack_flags.md R145). -/
def pushedFlags (p : Flags) : Byte := p.pack ||| 0x10#8

/-! ### The software interrupt and its return -/

/-- The address of the word BRK loads into PC (48_ext_control.md R140). -/
def brkVector : Addr := 0xFFFE#16

/-- Entering the software interrupt, the one trap-like sequence of the machine: push PC and the flag
byte, set I, load PC from the vector, 2 cycles more (48_ext_control.md R140, 60_exceptions.md R158). -/
def enterSoftwareInterrupt (s : State) : State :=
  let t := pushByte (pushWord s s.pc) (pushedFlags s.p)
  ((t.setP { t.p with i := true }).setPc (memReadWord t brkVector)).charge 2

/-- Returning from it: pull the flags, pull PC, 2 cycles more (48_ext_control.md R141). -/
def returnFromInterrupt (s : State) : State :=
  let flags := pullByte s
  let target := pullWord (flags.2.setP (flags.2.p.unpack flags.1))
  (target.2.setPc target.1).charge 2

/-! ### The diagnostic -/

/-- `raise UnknownOpcode(op)`: the byte is appended to DIAG and nothing else happens; with
UNKNOWN_POLICY = fatal Execute then ends (42_dispatch_loop.md R74, R77; log 10). -/
def raiseUnknownOpcode (s : State) (op : Byte) : State :=
  let t := { s with diag := s.diag ++ [op] }
  match s.cfg.unknownPolicy with
  | .lenient => t
  | .fatal => t.setRun .halted

end Sys2Proof.Machine
end

