-- ==== Sys2Proof/Machine/Operands.lean ====
section
/-! DEFINITION. The addressing-mode resolvers (40_fetch_addressing.md R55 to R66) and the operand helpers of 45_ext_load_store_transfer.md R96. A resolver takes the operand the decoder found in the instruction stream; fetching it moves PC and charges as FetchByte or FetchWord does (log 7). -/

namespace Sys2Proof.Machine

/-- An addressing mode with an effective address, with its operand byte or word. -/
inductive Mode where
  | zp   (d : Byte)
  | zpX  (d : Byte)
  | zpY  (d : Byte)
  | abs  (w : Addr)
  | absX (w : Addr)
  | absY (w : Addr)
  | indX (d : Byte)
  | indY (d : Byte)
  deriving DecidableEq, Repr

/-- The operand of an instruction that only reads it: immediate, or at an effective address. -/
inductive Source where
  | imm (v : Byte)
  | mem (m : Mode)
  deriving DecidableEq, Repr

/-! ### The resolvers -/

/-- The state after one operand byte is fetched. -/
def pastByte (s : State) : State := (fetchByte s).2

/-- The state after one operand word is fetched. -/
def pastWord (s : State) : State := (fetchWord s).2

/-- `Immediate()` (R56). -/
def immediate (v : Byte) (s : State) : Byte × State := (v, pastByte s)

/-- `ZeroPage()` (R57). -/
def zeroPage (d : Byte) (s : State) : Addr × State := (zeroExtend16 d, pastByte s)

/-- The zero-page index addition: 8-bit wrap, 1 cycle (R58). -/
def zeroPageIndexed (d index : Byte) (s : State) : Addr × State :=
  (zeroExtend16 (d + index), (pastByte s).charge 1)

/-- `ZeroPageX()` (R58). -/
def zeroPageX (d : Byte) (s : State) : Addr × State := zeroPageIndexed d s.x s

/-- `ZeroPageY()` (R58). -/
def zeroPageY (d : Byte) (s : State) : Addr × State := zeroPageIndexed d s.y s

/-- `Absolute()` (R59). -/
def absolute (w : Addr) (s : State) : Addr × State := (w, pastWord s)

/-- How an indexed address charges its indexing cycle: reading forms when a page is crossed, stores
and read-modify-write forms always (R60, R65; 45_ext_load_store_transfer.md R96). -/
inductive Access where
  | reading
  | writing
  deriving DecidableEq, Repr

/-- The index added to a base at 16 bits, with its cycle. -/
def indexed (acc : Access) (base : Addr) (index : Byte) (s : State) : Addr × State :=
  let ea := base + zeroExtend16 index
  match acc with
  | .reading => (ea, if pageDiffers ea base then s.charge 1 else s)
  | .writing => (ea, s.charge 1)

/-- `AbsoluteX()` (R60). -/
def absoluteX (acc : Access) (w : Addr) (s : State) : Addr × State := indexed acc w s.x (pastWord s)

/-- `AbsoluteY()` (R60). -/
def absoluteY (acc : Access) (w : Addr) (s : State) : Addr × State := indexed acc w s.y (pastWord s)

/-- A pointer read from page 0: both bytes stay there (R64, R65). 2 cycles. -/
def zeroPagePointer (z : Byte) (s : State) : Addr × State :=
  let lo := readByte s (zeroExtend16 z)
  let hi := readByte lo.2 (zeroExtend16 (z + 1))
  (joinBytes hi.1 lo.1, hi.2)

/-- `IndirectX()` (R64). -/
def indirectX (d : Byte) (s : State) : Addr × State :=
  zeroPagePointer (d + s.x) ((pastByte s).charge 1)

/-- `IndirectY()` (R65). -/
def indirectY (acc : Access) (d : Byte) (s : State) : Addr × State :=
  let base := zeroPagePointer d (pastByte s)
  indexed acc base.1 s.y base.2

/-- `Relative()`: the displacement counts from the address of the next instruction (R62). -/
def relative (d : Byte) (s : State) : Addr × State :=
  let t := pastByte s
  (t.pc + signExtend16 d, t)

/-- `Indirect()`, of JMP: the high byte of the target comes from the page of the low byte (R63). -/
def indirect (w : Addr) (s : State) : Addr × State :=
  let lo := readByte (pastWord s) w
  let hi := readByte lo.2 (joinBytes (highByte w) (lowByte w + 1))
  (joinBytes hi.1 lo.1, hi.2)

/-! ### The operand helpers -/

/-- The resolver of a mode: the effective address and the state after it is formed. With `.writing`
it is `AddrW` (45_ext_load_store_transfer.md R96). -/
def resolve (acc : Access) (m : Mode) (s : State) : Addr × State :=
  match m with
  | .zp d => zeroPage d s
  | .zpX d => zeroPageX d s
  | .zpY d => zeroPageY d s
  | .abs w => absolute w s
  | .absX w => absoluteX acc w s
  | .absY w => absoluteY acc w s
  | .indX d => indirectX d s
  | .indY d => indirectY acc d s

/-- `Operand(mode)`: the operand's value and the state after it is read (R96). -/
def operand (src : Source) (s : State) : Byte × State :=
  match src with
  | .imm v => immediate v s
  | .mem m =>
    let r := resolve .reading m s
    readByte r.2 r.1

end Sys2Proof.Machine
end

