-- ==== Sys2Proof/Machine/Flags.lean ====
section
/-! DEFINITION. The flag computations (41_flag_rules.md R67 to R70, 46_ext_arith_logic.md R109, R110, R114, R117) and the functions of the read-modify-write instructions (47_ext_shift_incdec.md R119 to R124). -/

namespace Sys2Proof.Machine

/-- `SetNZ(v)` on the flags (41_flag_rules.md R67). -/
def Flags.setNZ (p : Flags) (v : Byte) : Flags := { p with z := v == 0#8, n := v.getLsbD 7 }

/-- `SetNZ(v)` (41_flag_rules.md R67). -/
def State.setNZ (s : State) (v : Byte) : State := s.setP (s.p.setNZ v)

/-- `A + m + C` as a mathematical integer, 0 to 511 (46_ext_arith_logic.md R109). -/
def addTotal (a m : Byte) (c : Bool) : Nat := a.toNat + m.toNat + c.toNat

/-- The sum narrowed to 8 bits. -/
def addResult (a m : Byte) (c : Bool) : Byte := BitVec.ofNat 8 (addTotal a m c)

/-- V and C of an addition, then N and Z of its result (46_ext_arith_logic.md R109). -/
def Flags.afterAdd (p : Flags) (a m : Byte) : Flags :=
  let r := addResult a m p.c
  { p with
    v := (a.getLsbD 7 == m.getLsbD 7) && (r.getLsbD 7 != a.getLsbD 7)
    c := decide (255 < addTotal a m p.c) }.setNZ r

/-- `Compare(r, m)` on the flags (46_ext_arith_logic.md R114). -/
def Flags.afterCompare (p : Flags) (r m : Byte) : Flags :=
  { p with c := decide (m.toNat ≤ r.toNat) }.setNZ (r - m)

/-- BIT on the flags (46_ext_arith_logic.md R117). -/
def Flags.afterBit (p : Flags) (a m : Byte) : Flags :=
  { p with z := (a &&& m) == 0#8, n := m.getLsbD 7, v := m.getLsbD 6 }

/-- The function of a read-modify-write instruction: from the old value and the old C to the new
value and the new C (47_ext_shift_incdec.md R118). -/
abbrev RmwFunction := Byte → Bool → Byte × Bool

/-- ASL (47_ext_shift_incdec.md R119). -/
def shiftLeft : RmwFunction := fun v _ => (v <<< 1, v.getLsbD 7)

/-- LSR (47_ext_shift_incdec.md R120). -/
def shiftRight : RmwFunction := fun v _ => (v >>> 1, v.getLsbD 0)

/-- ROL (47_ext_shift_incdec.md R121). -/
def rotateLeft : RmwFunction := fun v c => ((v <<< 1) ||| (BitVec.ofBool c).setWidth 8, v.getLsbD 7)

/-- ROR (47_ext_shift_incdec.md R122). -/
def rotateRight : RmwFunction := fun v c =>
  ((v >>> 1) ||| ((BitVec.ofBool c).setWidth 8 <<< 7), v.getLsbD 0)

/-- INC: C is not written (47_ext_shift_incdec.md R123). -/
def increment : RmwFunction := fun v c => (v + 1#8, c)

/-- DEC: C is not written (47_ext_shift_incdec.md R124). -/
def decrement : RmwFunction := fun v c => (v - 1#8, c)

/-- The flags after a read-modify-write: C as the function says, N and Z of the value written (R118). -/
def Flags.afterRmw (p : Flags) (f : RmwFunction) (v : Byte) : Flags :=
  { p with c := (f v p.c).2 }.setNZ (f v p.c).1

end Sys2Proof.Machine
end

