-- ==== Sys2Proof/Machine/Arith.lean ====
section
/-! DEFINITION. Arithmetic, logic, compare and bit test (46_ext_arith_logic.md R109 to R117). A meaning starts after the opcode fetch: PC is the opcode address plus 1 and 1 cycle is charged. -/

namespace Sys2Proof.Machine

/-- With DECIMAL_POLICY = refuse and D = 1 there is no meaning (46_ext_arith_logic.md R109, log 9);
otherwise the step is `k`. -/
def decimalGuard (s : State) (k : Result) : Result :=
  if s.cfg.decimalPolicy = .refuse ∧ s.p.d = true then .refused .decimalMode else k

/-- ADC with `f` applied to the operand: the identity for ADC, the one's complement for SBC
(46_ext_arith_logic.md R109, R110). -/
def addWith (f : Byte → Byte) (src : Source) (s : State) : Result :=
  let m := operand src s
  decimalGuard s
    (.next ((m.2.setP (s.p.afterAdd s.a (f m.1))).setA (addResult s.a (f m.1) s.p.c)))

/-- AND, ORA, EOR (46_ext_arith_logic.md R111 to R113). -/
def logic (f : Byte → Byte → Byte) (src : Source) (s : State) : Result :=
  let m := operand src s
  .next ((m.2.setA (f s.a m.1)).setNZ (f s.a m.1))

/-- CMP, CPX, CPY: no register is written (46_ext_arith_logic.md R114 to R116). -/
def compareWith (r : Byte) (src : Source) (s : State) : Result :=
  let m := operand src s
  .next (m.2.setP (s.p.afterCompare r m.1))

/-- BIT (46_ext_arith_logic.md R117). -/
def bitTest (src : Source) (s : State) : Result :=
  let m := operand src s
  .next (m.2.setP (s.p.afterBit s.a m.1))

/-- ADC #$nn (R109): 2 cycles. -/
def execAdcImm (v : Byte) (s : State) : Result :=
  addWith id (.imm v) s

/-- ADC $nn (R109): 3 cycles. -/
def execAdcZp (d : Byte) (s : State) : Result :=
  addWith id (.mem (.zp d)) s

/-- ADC $nn,X (R109): 4 cycles. -/
def execAdcZpX (d : Byte) (s : State) : Result :=
  addWith id (.mem (.zpX d)) s

/-- ADC $nnnn (R109): 4 cycles. -/
def execAdcAbs (w : Addr) (s : State) : Result :=
  addWith id (.mem (.abs w)) s

/-- ADC $nnnn,X (R109): 4 cycles, +p. -/
def execAdcAbsX (w : Addr) (s : State) : Result :=
  addWith id (.mem (.absX w)) s

/-- ADC $nnnn,Y (R109): 4 cycles, +p. -/
def execAdcAbsY (w : Addr) (s : State) : Result :=
  addWith id (.mem (.absY w)) s

/-- ADC ($nn,X) (R109): 6 cycles. -/
def execAdcIndX (d : Byte) (s : State) : Result :=
  addWith id (.mem (.indX d)) s

/-- ADC ($nn),Y (R109): 5 cycles, +p. -/
def execAdcIndY (d : Byte) (s : State) : Result :=
  addWith id (.mem (.indY d)) s

/-- SBC #$nn (R110): 2 cycles. -/
def execSbcImm (v : Byte) (s : State) : Result :=
  addWith (fun m => m ^^^ 0xFF#8) (.imm v) s

/-- SBC $nn (R110): 3 cycles. -/
def execSbcZp (d : Byte) (s : State) : Result :=
  addWith (fun m => m ^^^ 0xFF#8) (.mem (.zp d)) s

/-- SBC $nn,X (R110): 4 cycles. -/
def execSbcZpX (d : Byte) (s : State) : Result :=
  addWith (fun m => m ^^^ 0xFF#8) (.mem (.zpX d)) s

/-- SBC $nnnn (R110): 4 cycles. -/
def execSbcAbs (w : Addr) (s : State) : Result :=
  addWith (fun m => m ^^^ 0xFF#8) (.mem (.abs w)) s

/-- SBC $nnnn,X (R110): 4 cycles, +p. -/
def execSbcAbsX (w : Addr) (s : State) : Result :=
  addWith (fun m => m ^^^ 0xFF#8) (.mem (.absX w)) s

/-- SBC $nnnn,Y (R110): 4 cycles, +p. -/
def execSbcAbsY (w : Addr) (s : State) : Result :=
  addWith (fun m => m ^^^ 0xFF#8) (.mem (.absY w)) s

/-- SBC ($nn,X) (R110): 6 cycles. -/
def execSbcIndX (d : Byte) (s : State) : Result :=
  addWith (fun m => m ^^^ 0xFF#8) (.mem (.indX d)) s

/-- SBC ($nn),Y (R110): 5 cycles, +p. -/
def execSbcIndY (d : Byte) (s : State) : Result :=
  addWith (fun m => m ^^^ 0xFF#8) (.mem (.indY d)) s

/-- AND #$nn (R111): 2 cycles. -/
def execAndImm (v : Byte) (s : State) : Result :=
  logic (fun a m => a &&& m) (.imm v) s

/-- AND $nn (R111): 3 cycles. -/
def execAndZp (d : Byte) (s : State) : Result :=
  logic (fun a m => a &&& m) (.mem (.zp d)) s

/-- AND $nn,X (R111): 4 cycles. -/
def execAndZpX (d : Byte) (s : State) : Result :=
  logic (fun a m => a &&& m) (.mem (.zpX d)) s

/-- AND $nnnn (R111): 4 cycles. -/
def execAndAbs (w : Addr) (s : State) : Result :=
  logic (fun a m => a &&& m) (.mem (.abs w)) s

/-- AND $nnnn,X (R111): 4 cycles, +p. -/
def execAndAbsX (w : Addr) (s : State) : Result :=
  logic (fun a m => a &&& m) (.mem (.absX w)) s

/-- AND $nnnn,Y (R111): 4 cycles, +p. -/
def execAndAbsY (w : Addr) (s : State) : Result :=
  logic (fun a m => a &&& m) (.mem (.absY w)) s

/-- AND ($nn,X) (R111): 6 cycles. -/
def execAndIndX (d : Byte) (s : State) : Result :=
  logic (fun a m => a &&& m) (.mem (.indX d)) s

/-- AND ($nn),Y (R111): 5 cycles, +p. -/
def execAndIndY (d : Byte) (s : State) : Result :=
  logic (fun a m => a &&& m) (.mem (.indY d)) s

/-- ORA #$nn (R112): 2 cycles. -/
def execOraImm (v : Byte) (s : State) : Result :=
  logic (fun a m => a ||| m) (.imm v) s

/-- ORA $nn (R112): 3 cycles. -/
def execOraZp (d : Byte) (s : State) : Result :=
  logic (fun a m => a ||| m) (.mem (.zp d)) s

/-- ORA $nn,X (R112): 4 cycles. -/
def execOraZpX (d : Byte) (s : State) : Result :=
  logic (fun a m => a ||| m) (.mem (.zpX d)) s

/-- ORA $nnnn (R112): 4 cycles. -/
def execOraAbs (w : Addr) (s : State) : Result :=
  logic (fun a m => a ||| m) (.mem (.abs w)) s

/-- ORA $nnnn,X (R112): 4 cycles, +p. -/
def execOraAbsX (w : Addr) (s : State) : Result :=
  logic (fun a m => a ||| m) (.mem (.absX w)) s

/-- ORA $nnnn,Y (R112): 4 cycles, +p. -/
def execOraAbsY (w : Addr) (s : State) : Result :=
  logic (fun a m => a ||| m) (.mem (.absY w)) s

/-- ORA ($nn,X) (R112): 6 cycles. -/
def execOraIndX (d : Byte) (s : State) : Result :=
  logic (fun a m => a ||| m) (.mem (.indX d)) s

/-- ORA ($nn),Y (R112): 5 cycles, +p. -/
def execOraIndY (d : Byte) (s : State) : Result :=
  logic (fun a m => a ||| m) (.mem (.indY d)) s

/-- EOR #$nn (R113): 2 cycles. -/
def execEorImm (v : Byte) (s : State) : Result :=
  logic (fun a m => a ^^^ m) (.imm v) s

/-- EOR $nn (R113): 3 cycles. -/
def execEorZp (d : Byte) (s : State) : Result :=
  logic (fun a m => a ^^^ m) (.mem (.zp d)) s

/-- EOR $nn,X (R113): 4 cycles. -/
def execEorZpX (d : Byte) (s : State) : Result :=
  logic (fun a m => a ^^^ m) (.mem (.zpX d)) s

/-- EOR $nnnn (R113): 4 cycles. -/
def execEorAbs (w : Addr) (s : State) : Result :=
  logic (fun a m => a ^^^ m) (.mem (.abs w)) s

/-- EOR $nnnn,X (R113): 4 cycles, +p. -/
def execEorAbsX (w : Addr) (s : State) : Result :=
  logic (fun a m => a ^^^ m) (.mem (.absX w)) s

/-- EOR $nnnn,Y (R113): 4 cycles, +p. -/
def execEorAbsY (w : Addr) (s : State) : Result :=
  logic (fun a m => a ^^^ m) (.mem (.absY w)) s

/-- EOR ($nn,X) (R113): 6 cycles. -/
def execEorIndX (d : Byte) (s : State) : Result :=
  logic (fun a m => a ^^^ m) (.mem (.indX d)) s

/-- EOR ($nn),Y (R113): 5 cycles, +p. -/
def execEorIndY (d : Byte) (s : State) : Result :=
  logic (fun a m => a ^^^ m) (.mem (.indY d)) s

/-- CMP #$nn (R114): 2 cycles. -/
def execCmpImm (v : Byte) (s : State) : Result :=
  compareWith s.a (.imm v) s

/-- CMP $nn (R114): 3 cycles. -/
def execCmpZp (d : Byte) (s : State) : Result :=
  compareWith s.a (.mem (.zp d)) s

/-- CMP $nn,X (R114): 4 cycles. -/
def execCmpZpX (d : Byte) (s : State) : Result :=
  compareWith s.a (.mem (.zpX d)) s

/-- CMP $nnnn (R114): 4 cycles. -/
def execCmpAbs (w : Addr) (s : State) : Result :=
  compareWith s.a (.mem (.abs w)) s

/-- CMP $nnnn,X (R114): 4 cycles, +p. -/
def execCmpAbsX (w : Addr) (s : State) : Result :=
  compareWith s.a (.mem (.absX w)) s

/-- CMP $nnnn,Y (R114): 4 cycles, +p. -/
def execCmpAbsY (w : Addr) (s : State) : Result :=
  compareWith s.a (.mem (.absY w)) s

/-- CMP ($nn,X) (R114): 6 cycles. -/
def execCmpIndX (d : Byte) (s : State) : Result :=
  compareWith s.a (.mem (.indX d)) s

/-- CMP ($nn),Y (R114): 5 cycles, +p. -/
def execCmpIndY (d : Byte) (s : State) : Result :=
  compareWith s.a (.mem (.indY d)) s

/-- CPX #$nn (R115): 2 cycles. -/
def execCpxImm (v : Byte) (s : State) : Result :=
  compareWith s.x (.imm v) s

/-- CPX $nn (R115): 3 cycles. -/
def execCpxZp (d : Byte) (s : State) : Result :=
  compareWith s.x (.mem (.zp d)) s

/-- CPX $nnnn (R115): 4 cycles. -/
def execCpxAbs (w : Addr) (s : State) : Result :=
  compareWith s.x (.mem (.abs w)) s

/-- CPY #$nn (R116): 2 cycles. -/
def execCpyImm (v : Byte) (s : State) : Result :=
  compareWith s.y (.imm v) s

/-- CPY $nn (R116): 3 cycles. -/
def execCpyZp (d : Byte) (s : State) : Result :=
  compareWith s.y (.mem (.zp d)) s

/-- CPY $nnnn (R116): 4 cycles. -/
def execCpyAbs (w : Addr) (s : State) : Result :=
  compareWith s.y (.mem (.abs w)) s

/-- BIT $nn (R117): 3 cycles. -/
def execBitZp (d : Byte) (s : State) : Result :=
  bitTest (.mem (.zp d)) s

/-- BIT $nnnn (R117): 4 cycles. -/
def execBitAbs (w : Addr) (s : State) : Result :=
  bitTest (.mem (.abs w)) s

end Sys2Proof.Machine
end

