-- ==== Sys2Proof/Machine/Control.lean ====
section
/-! DEFINITION. Jumps, subroutine call and return, branches, BRK, RTI, NOP, unknown opcode (44_jsr_stack.md R95, 48_ext_control.md R129 to R142, 42_dispatch_loop.md R77). A meaning starts after the opcode fetch: PC is the opcode address plus 1 and 1 cycle is charged. -/

namespace Sys2Proof.Machine

/-- JMP to a resolved target (48_ext_control.md R129). -/
def jump (target : Addr × State) : Result := .next (target.2.setPc target.1)

/-- `Branch(cond)`: one cycle when taken, one more when the target lies in another page than the next
instruction (48_ext_control.md R131). -/
def branch (cond : Bool) (d : Byte) (s : State) : Result :=
  let t := relative d s
  if cond then
    let u := t.2.charge 1
    .next ((if pageDiffers t.1 u.pc then u.charge 1 else u).setPc t.1)
  else .next t.2

/-- JMP $nnnn (R129): 3 cycles. -/
def execJmpAbs (w : Addr) (s : State) : Result :=
  jump (absolute w s)

/-- JMP ($nnnn) (R129): 5 cycles. -/
def execJmpInd (w : Addr) (s : State) : Result :=
  jump (indirect w s)

/-- JSR $nnnn (R95): 6 cycles. -/
def execJsr (w : Addr) (s : State) : Result :=
  let t := absolute w s
  stackGuard s (pushWraps s 2) (.next (((pushWord t.2 (t.2.pc - 1)).setPc t.1).charge 1))

/-- RTS (R130): 6 cycles. -/
def execRts (s : State) : Result :=
  let w := pullWord s
  stackGuard s (pullWraps s 2) (.next ((w.2.setPc (w.1 + 1)).charge 3))

/-- BCC $nnnn (target) (R132): 2 cycles, +b. -/
def execBcc (d : Byte) (s : State) : Result :=
  branch (!s.p.c) d s

/-- BCS $nnnn (target) (R133): 2 cycles, +b. -/
def execBcs (d : Byte) (s : State) : Result :=
  branch s.p.c d s

/-- BEQ $nnnn (target) (R134): 2 cycles, +b. -/
def execBeq (d : Byte) (s : State) : Result :=
  branch s.p.z d s

/-- BNE $nnnn (target) (R135): 2 cycles, +b. -/
def execBne (d : Byte) (s : State) : Result :=
  branch (!s.p.z) d s

/-- BMI $nnnn (target) (R136): 2 cycles, +b. -/
def execBmi (d : Byte) (s : State) : Result :=
  branch s.p.n d s

/-- BPL $nnnn (target) (R137): 2 cycles, +b. -/
def execBpl (d : Byte) (s : State) : Result :=
  branch (!s.p.n) d s

/-- BVC $nnnn (target) (R138): 2 cycles, +b. -/
def execBvc (d : Byte) (s : State) : Result :=
  branch (!s.p.v) d s

/-- BVS $nnnn (target) (R139): 2 cycles, +b. -/
def execBvs (d : Byte) (s : State) : Result :=
  branch s.p.v d s

/-- BRK (R140): 7 cycles. -/
def execBrk (s : State) : Result :=
  stackGuard s (pushWraps s 3) (.next (enterSoftwareInterrupt (pastByte s)))

/-- RTI (R141): 6 cycles. -/
def execRti (s : State) : Result :=
  stackGuard s (pullWraps s 3) (.next (returnFromInterrupt s))

/-- NOP (R142): 2 cycles. -/
def execNop (s : State) : Result :=
  .next (implied s)

/-- An opcode byte without a table entry (42_dispatch_loop.md R77): the diagnostic and nothing else. -/
def execUnknown (op : Byte) (s : State) : Result :=
  .next (raiseUnknownOpcode s op)

end Sys2Proof.Machine
end

