-- ==== Sys2Proof/Machine/LoadStore.lean ====
section
/-! DEFINITION. Loads and stores (43_load_base.md R85 to R88, 45_ext_load_store_transfer.md R96 to R102). A meaning starts after the opcode fetch: PC is the opcode address plus 1 and 1 cycle is charged. -/

namespace Sys2Proof.Machine

/-- `LoadA(v)` on an operand (43_load_base.md R85). -/
def loadA (src : Source) (s : State) : Result :=
  let v := operand src s
  .next ((v.2.setA v.1).setNZ v.1)

/-- LDX (45_ext_load_store_transfer.md R98). -/
def loadX (src : Source) (s : State) : Result :=
  let v := operand src s
  .next ((v.2.setX v.1).setNZ v.1)

/-- LDY (45_ext_load_store_transfer.md R99). -/
def loadY (src : Source) (s : State) : Result :=
  let v := operand src s
  .next ((v.2.setY v.1).setNZ v.1)

/-- A register stored at the address of `AddrW(mode)` (45_ext_load_store_transfer.md R100 to R102). -/
def store (m : Mode) (v : Byte) (s : State) : Result :=
  let r := resolve .writing m s
  .next (writeByte r.2 r.1 v)

/-- LDA #$nn (R86): 2 cycles. -/
def execLdaImm (v : Byte) (s : State) : Result :=
  loadA (.imm v) s

/-- LDA $nn (R87): 3 cycles. -/
def execLdaZp (d : Byte) (s : State) : Result :=
  loadA (.mem (.zp d)) s

/-- LDA $nn,X (R88): 4 cycles. -/
def execLdaZpX (d : Byte) (s : State) : Result :=
  loadA (.mem (.zpX d)) s

/-- LDA $nnnn (R97): 4 cycles. -/
def execLdaAbs (w : Addr) (s : State) : Result :=
  loadA (.mem (.abs w)) s

/-- LDA $nnnn,X (R97): 4 cycles, +p. -/
def execLdaAbsX (w : Addr) (s : State) : Result :=
  loadA (.mem (.absX w)) s

/-- LDA $nnnn,Y (R97): 4 cycles, +p. -/
def execLdaAbsY (w : Addr) (s : State) : Result :=
  loadA (.mem (.absY w)) s

/-- LDA ($nn,X) (R97): 6 cycles. -/
def execLdaIndX (d : Byte) (s : State) : Result :=
  loadA (.mem (.indX d)) s

/-- LDA ($nn),Y (R97): 5 cycles, +p. -/
def execLdaIndY (d : Byte) (s : State) : Result :=
  loadA (.mem (.indY d)) s

/-- LDX #$nn (R98): 2 cycles. -/
def execLdxImm (v : Byte) (s : State) : Result :=
  loadX (.imm v) s

/-- LDX $nn (R98): 3 cycles. -/
def execLdxZp (d : Byte) (s : State) : Result :=
  loadX (.mem (.zp d)) s

/-- LDX $nn,Y (R98): 4 cycles. -/
def execLdxZpY (d : Byte) (s : State) : Result :=
  loadX (.mem (.zpY d)) s

/-- LDX $nnnn (R98): 4 cycles. -/
def execLdxAbs (w : Addr) (s : State) : Result :=
  loadX (.mem (.abs w)) s

/-- LDX $nnnn,Y (R98): 4 cycles, +p. -/
def execLdxAbsY (w : Addr) (s : State) : Result :=
  loadX (.mem (.absY w)) s

/-- LDY #$nn (R99): 2 cycles. -/
def execLdyImm (v : Byte) (s : State) : Result :=
  loadY (.imm v) s

/-- LDY $nn (R99): 3 cycles. -/
def execLdyZp (d : Byte) (s : State) : Result :=
  loadY (.mem (.zp d)) s

/-- LDY $nn,X (R99): 4 cycles. -/
def execLdyZpX (d : Byte) (s : State) : Result :=
  loadY (.mem (.zpX d)) s

/-- LDY $nnnn (R99): 4 cycles. -/
def execLdyAbs (w : Addr) (s : State) : Result :=
  loadY (.mem (.abs w)) s

/-- LDY $nnnn,X (R99): 4 cycles, +p. -/
def execLdyAbsX (w : Addr) (s : State) : Result :=
  loadY (.mem (.absX w)) s

/-- STA $nn (R100): 3 cycles. -/
def execStaZp (d : Byte) (s : State) : Result :=
  store (.zp d) s.a s

/-- STA $nn,X (R100): 4 cycles. -/
def execStaZpX (d : Byte) (s : State) : Result :=
  store (.zpX d) s.a s

/-- STA $nnnn (R100): 4 cycles. -/
def execStaAbs (w : Addr) (s : State) : Result :=
  store (.abs w) s.a s

/-- STA $nnnn,X (R100): 5 cycles. -/
def execStaAbsX (w : Addr) (s : State) : Result :=
  store (.absX w) s.a s

/-- STA $nnnn,Y (R100): 5 cycles. -/
def execStaAbsY (w : Addr) (s : State) : Result :=
  store (.absY w) s.a s

/-- STA ($nn,X) (R100): 6 cycles. -/
def execStaIndX (d : Byte) (s : State) : Result :=
  store (.indX d) s.a s

/-- STA ($nn),Y (R100): 6 cycles. -/
def execStaIndY (d : Byte) (s : State) : Result :=
  store (.indY d) s.a s

/-- STX $nn (R101): 3 cycles. -/
def execStxZp (d : Byte) (s : State) : Result :=
  store (.zp d) s.x s

/-- STX $nn,Y (R101): 4 cycles. -/
def execStxZpY (d : Byte) (s : State) : Result :=
  store (.zpY d) s.x s

/-- STX $nnnn (R101): 4 cycles. -/
def execStxAbs (w : Addr) (s : State) : Result :=
  store (.abs w) s.x s

/-- STY $nn (R102): 3 cycles. -/
def execStyZp (d : Byte) (s : State) : Result :=
  store (.zp d) s.y s

/-- STY $nn,X (R102): 4 cycles. -/
def execStyZpX (d : Byte) (s : State) : Result :=
  store (.zpX d) s.y s

/-- STY $nnnn (R102): 4 cycles. -/
def execStyAbs (w : Addr) (s : State) : Result :=
  store (.abs w) s.y s

end Sys2Proof.Machine
end

