-- ==== Sys2Proof/Machine/Shift.lean ====
section
/-! DEFINITION. Shifts, rotates, increments, decrements (47_ext_shift_incdec.md R118 to R128). A meaning starts after the opcode fetch: PC is the opcode address plus 1 and 1 cycle is charged. -/

namespace Sys2Proof.Machine

/-- The read-modify-write frame on the accumulator (47_ext_shift_incdec.md R118). -/
def rmwA (f : RmwFunction) (s : State) : Result :=
  .next (((implied s).setA (f s.a s.p.c).1).setP (s.p.afterRmw f s.a))

/-- The read-modify-write frame on memory: exactly one write (47_ext_shift_incdec.md R118). -/
def rmwMem (f : RmwFunction) (m : Mode) (s : State) : Result :=
  let r := resolve .writing m s
  let v := readByte r.2 r.1
  let t := (v.2.charge 1).setP (s.p.afterRmw f v.1)
  .next (writeByte t r.1 (f v.1 s.p.c).1)

/-- ASL A (R119): 2 cycles. -/
def execAslAcc (s : State) : Result :=
  rmwA shiftLeft s

/-- ASL $nn (R119): 5 cycles. -/
def execAslZp (d : Byte) (s : State) : Result :=
  rmwMem shiftLeft (.zp d) s

/-- ASL $nn,X (R119): 6 cycles. -/
def execAslZpX (d : Byte) (s : State) : Result :=
  rmwMem shiftLeft (.zpX d) s

/-- ASL $nnnn (R119): 6 cycles. -/
def execAslAbs (w : Addr) (s : State) : Result :=
  rmwMem shiftLeft (.abs w) s

/-- ASL $nnnn,X (R119): 7 cycles. -/
def execAslAbsX (w : Addr) (s : State) : Result :=
  rmwMem shiftLeft (.absX w) s

/-- LSR A (R120): 2 cycles. -/
def execLsrAcc (s : State) : Result :=
  rmwA shiftRight s

/-- LSR $nn (R120): 5 cycles. -/
def execLsrZp (d : Byte) (s : State) : Result :=
  rmwMem shiftRight (.zp d) s

/-- LSR $nn,X (R120): 6 cycles. -/
def execLsrZpX (d : Byte) (s : State) : Result :=
  rmwMem shiftRight (.zpX d) s

/-- LSR $nnnn (R120): 6 cycles. -/
def execLsrAbs (w : Addr) (s : State) : Result :=
  rmwMem shiftRight (.abs w) s

/-- LSR $nnnn,X (R120): 7 cycles. -/
def execLsrAbsX (w : Addr) (s : State) : Result :=
  rmwMem shiftRight (.absX w) s

/-- ROL A (R121): 2 cycles. -/
def execRolAcc (s : State) : Result :=
  rmwA rotateLeft s

/-- ROL $nn (R121): 5 cycles. -/
def execRolZp (d : Byte) (s : State) : Result :=
  rmwMem rotateLeft (.zp d) s

/-- ROL $nn,X (R121): 6 cycles. -/
def execRolZpX (d : Byte) (s : State) : Result :=
  rmwMem rotateLeft (.zpX d) s

/-- ROL $nnnn (R121): 6 cycles. -/
def execRolAbs (w : Addr) (s : State) : Result :=
  rmwMem rotateLeft (.abs w) s

/-- ROL $nnnn,X (R121): 7 cycles. -/
def execRolAbsX (w : Addr) (s : State) : Result :=
  rmwMem rotateLeft (.absX w) s

/-- ROR A (R122): 2 cycles. -/
def execRorAcc (s : State) : Result :=
  rmwA rotateRight s

/-- ROR $nn (R122): 5 cycles. -/
def execRorZp (d : Byte) (s : State) : Result :=
  rmwMem rotateRight (.zp d) s

/-- ROR $nn,X (R122): 6 cycles. -/
def execRorZpX (d : Byte) (s : State) : Result :=
  rmwMem rotateRight (.zpX d) s

/-- ROR $nnnn (R122): 6 cycles. -/
def execRorAbs (w : Addr) (s : State) : Result :=
  rmwMem rotateRight (.abs w) s

/-- ROR $nnnn,X (R122): 7 cycles. -/
def execRorAbsX (w : Addr) (s : State) : Result :=
  rmwMem rotateRight (.absX w) s

/-- INC $nn (R123): 5 cycles. -/
def execIncZp (d : Byte) (s : State) : Result :=
  rmwMem increment (.zp d) s

/-- INC $nn,X (R123): 6 cycles. -/
def execIncZpX (d : Byte) (s : State) : Result :=
  rmwMem increment (.zpX d) s

/-- INC $nnnn (R123): 6 cycles. -/
def execIncAbs (w : Addr) (s : State) : Result :=
  rmwMem increment (.abs w) s

/-- INC $nnnn,X (R123): 7 cycles. -/
def execIncAbsX (w : Addr) (s : State) : Result :=
  rmwMem increment (.absX w) s

/-- DEC $nn (R124): 5 cycles. -/
def execDecZp (d : Byte) (s : State) : Result :=
  rmwMem decrement (.zp d) s

/-- DEC $nn,X (R124): 6 cycles. -/
def execDecZpX (d : Byte) (s : State) : Result :=
  rmwMem decrement (.zpX d) s

/-- DEC $nnnn (R124): 6 cycles. -/
def execDecAbs (w : Addr) (s : State) : Result :=
  rmwMem decrement (.abs w) s

/-- DEC $nnnn,X (R124): 7 cycles. -/
def execDecAbsX (w : Addr) (s : State) : Result :=
  rmwMem decrement (.absX w) s

/-- INX (R125): 2 cycles. -/
def execInx (s : State) : Result :=
  .next (((implied s).setX (s.x + 1)).setNZ (s.x + 1))

/-- INY (R126): 2 cycles. -/
def execIny (s : State) : Result :=
  .next (((implied s).setY (s.y + 1)).setNZ (s.y + 1))

/-- DEX (R127): 2 cycles. -/
def execDex (s : State) : Result :=
  .next (((implied s).setX (s.x - 1)).setNZ (s.x - 1))

/-- DEY (R128): 2 cycles. -/
def execDey (s : State) : Result :=
  .next (((implied s).setY (s.y - 1)).setNZ (s.y - 1))

end Sys2Proof.Machine
end

