-- ==== Sys2Proof/Machine/StackFlags.lean ====
section
/-! DEFINITION. Stack push and pull, flag set and clear (49_ext_stack_flags.md R143 to R153). A meaning starts after the opcode fetch: PC is the opcode address plus 1 and 1 cycle is charged. -/

namespace Sys2Proof.Machine

/-- PHA (R143): 3 cycles. -/
def execPha (s : State) : Result :=
  stackGuard s (pushWraps s 1) (.next (pushByte (s.charge 1) s.a))

/-- PLA (R144): 4 cycles. -/
def execPla (s : State) : Result :=
  let v := pullByte (s.charge 2)
  stackGuard s (pullWraps s 1) (.next ((v.2.setA v.1).setNZ v.1))

/-- PHP (R145): 3 cycles. -/
def execPhp (s : State) : Result :=
  stackGuard s (pushWraps s 1) (.next (pushByte (s.charge 1) (pushedFlags s.p)))

/-- PLP (R146): 4 cycles. -/
def execPlp (s : State) : Result :=
  let v := pullByte (s.charge 2)
  stackGuard s (pullWraps s 1) (.next (v.2.setP (v.2.p.unpack v.1)))

/-- CLC (R147): 2 cycles. -/
def execClc (s : State) : Result :=
  .next ((implied s).setP { s.p with c := false })

/-- SEC (R148): 2 cycles. -/
def execSec (s : State) : Result :=
  .next ((implied s).setP { s.p with c := true })

/-- CLI (R149): 2 cycles. -/
def execCli (s : State) : Result :=
  .next ((implied s).setP { s.p with i := false })

/-- SEI (R150): 2 cycles. -/
def execSei (s : State) : Result :=
  .next ((implied s).setP { s.p with i := true })

/-- CLD (R151): 2 cycles. -/
def execCld (s : State) : Result :=
  .next ((implied s).setP { s.p with d := false })

/-- SED (R152): 2 cycles. -/
def execSed (s : State) : Result :=
  .next ((implied s).setP { s.p with d := true })

/-- CLV (R153): 2 cycles. -/
def execClv (s : State) : Result :=
  .next ((implied s).setP { s.p with v := false })

end Sys2Proof.Machine
end

