-- ==== Sys2Proof/Machine/Transfer.lean ====
section
/-! DEFINITION. Register transfers (45_ext_load_store_transfer.md R103 to R108): one byte, one internal cycle. A meaning starts after the opcode fetch: PC is the opcode address plus 1 and 1 cycle is charged. -/

namespace Sys2Proof.Machine

/-- TAX (R103): 2 cycles. -/
def execTax (s : State) : Result :=
  .next (((implied s).setX s.a).setNZ s.a)

/-- TAY (R104): 2 cycles. -/
def execTay (s : State) : Result :=
  .next (((implied s).setY s.a).setNZ s.a)

/-- TXA (R105): 2 cycles. -/
def execTxa (s : State) : Result :=
  .next (((implied s).setA s.x).setNZ s.x)

/-- TYA (R106): 2 cycles. -/
def execTya (s : State) : Result :=
  .next (((implied s).setA s.y).setNZ s.y)

/-- TSX (R107): 2 cycles. -/
def execTsx (s : State) : Result :=
  .next (((implied s).setX s.sp).setNZ s.sp)

/-- TXS (R108): 2 cycles. -/
def execTxs (s : State) : Result :=
  .next ((implied s).setSp s.x)

end Sys2Proof.Machine
end

