-- ==== Sys2Proof/Syntax.lean ====
section
/-! DEFINITION. The instructions: one constructor per row of spec/opcode_table.json (30_encoding.md R46), named mnemonic and addressing mode, with the operand byte or word of the encoding (30_encoding.md R42, R44); and the fallback row, an opcode byte without a table entry (R47). -/

namespace Sys2Proof

/-- An instruction. `d` is a `d8` operand byte, `v` an immediate byte, `w` an `a16` operand word. -/
inductive Instr where
  -- Loads and stores (43_load_base.md, 45_ext_load_store_transfer.md)
  /-- LDA #$nn (R86). -/
  | ldaImm (v : Byte)
  /-- LDA $nn (R87). -/
  | ldaZp (d : Byte)
  /-- LDA $nn,X (R88). -/
  | ldaZpX (d : Byte)
  /-- LDA $nnnn (R97). -/
  | ldaAbs (w : Addr)
  /-- LDA $nnnn,X (R97). -/
  | ldaAbsX (w : Addr)
  /-- LDA $nnnn,Y (R97). -/
  | ldaAbsY (w : Addr)
  /-- LDA ($nn,X) (R97). -/
  | ldaIndX (d : Byte)
  /-- LDA ($nn),Y (R97). -/
  | ldaIndY (d : Byte)
  /-- LDX #$nn (R98). -/
  | ldxImm (v : Byte)
  /-- LDX $nn (R98). -/
  | ldxZp (d : Byte)
  /-- LDX $nn,Y (R98). -/
  | ldxZpY (d : Byte)
  /-- LDX $nnnn (R98). -/
  | ldxAbs (w : Addr)
  /-- LDX $nnnn,Y (R98). -/
  | ldxAbsY (w : Addr)
  /-- LDY #$nn (R99). -/
  | ldyImm (v : Byte)
  /-- LDY $nn (R99). -/
  | ldyZp (d : Byte)
  /-- LDY $nn,X (R99). -/
  | ldyZpX (d : Byte)
  /-- LDY $nnnn (R99). -/
  | ldyAbs (w : Addr)
  /-- LDY $nnnn,X (R99). -/
  | ldyAbsX (w : Addr)
  /-- STA $nn (R100). -/
  | staZp (d : Byte)
  /-- STA $nn,X (R100). -/
  | staZpX (d : Byte)
  /-- STA $nnnn (R100). -/
  | staAbs (w : Addr)
  /-- STA $nnnn,X (R100). -/
  | staAbsX (w : Addr)
  /-- STA $nnnn,Y (R100). -/
  | staAbsY (w : Addr)
  /-- STA ($nn,X) (R100). -/
  | staIndX (d : Byte)
  /-- STA ($nn),Y (R100). -/
  | staIndY (d : Byte)
  /-- STX $nn (R101). -/
  | stxZp (d : Byte)
  /-- STX $nn,Y (R101). -/
  | stxZpY (d : Byte)
  /-- STX $nnnn (R101). -/
  | stxAbs (w : Addr)
  /-- STY $nn (R102). -/
  | styZp (d : Byte)
  /-- STY $nn,X (R102). -/
  | styZpX (d : Byte)
  /-- STY $nnnn (R102). -/
  | styAbs (w : Addr)
  -- Register transfers (45_ext_load_store_transfer.md)
  /-- TAX (R103). -/
  | tax
  /-- TAY (R104). -/
  | tay
  /-- TXA (R105). -/
  | txa
  /-- TYA (R106). -/
  | tya
  /-- TSX (R107). -/
  | tsx
  /-- TXS (R108). -/
  | txs
  -- Arithmetic, logic, compare, bit test (46_ext_arith_logic.md)
  /-- ADC #$nn (R109). -/
  | adcImm (v : Byte)
  /-- ADC $nn (R109). -/
  | adcZp (d : Byte)
  /-- ADC $nn,X (R109). -/
  | adcZpX (d : Byte)
  /-- ADC $nnnn (R109). -/
  | adcAbs (w : Addr)
  /-- ADC $nnnn,X (R109). -/
  | adcAbsX (w : Addr)
  /-- ADC $nnnn,Y (R109). -/
  | adcAbsY (w : Addr)
  /-- ADC ($nn,X) (R109). -/
  | adcIndX (d : Byte)
  /-- ADC ($nn),Y (R109). -/
  | adcIndY (d : Byte)
  /-- SBC #$nn (R110). -/
  | sbcImm (v : Byte)
  /-- SBC $nn (R110). -/
  | sbcZp (d : Byte)
  /-- SBC $nn,X (R110). -/
  | sbcZpX (d : Byte)
  /-- SBC $nnnn (R110). -/
  | sbcAbs (w : Addr)
  /-- SBC $nnnn,X (R110). -/
  | sbcAbsX (w : Addr)
  /-- SBC $nnnn,Y (R110). -/
  | sbcAbsY (w : Addr)
  /-- SBC ($nn,X) (R110). -/
  | sbcIndX (d : Byte)
  /-- SBC ($nn),Y (R110). -/
  | sbcIndY (d : Byte)
  /-- AND #$nn (R111). -/
  | andImm (v : Byte)
  /-- AND $nn (R111). -/
  | andZp (d : Byte)
  /-- AND $nn,X (R111). -/
  | andZpX (d : Byte)
  /-- AND $nnnn (R111). -/
  | andAbs (w : Addr)
  /-- AND $nnnn,X (R111). -/
  | andAbsX (w : Addr)
  /-- AND $nnnn,Y (R111). -/
  | andAbsY (w : Addr)
  /-- AND ($nn,X) (R111). -/
  | andIndX (d : Byte)
  /-- AND ($nn),Y (R111). -/
  | andIndY (d : Byte)
  /-- ORA #$nn (R112). -/
  | oraImm (v : Byte)
  /-- ORA $nn (R112). -/
  | oraZp (d : Byte)
  /-- ORA $nn,X (R112). -/
  | oraZpX (d : Byte)
  /-- ORA $nnnn (R112). -/
  | oraAbs (w : Addr)
  /-- ORA $nnnn,X (R112). -/
  | oraAbsX (w : Addr)
  /-- ORA $nnnn,Y (R112). -/
  | oraAbsY (w : Addr)
  /-- ORA ($nn,X) (R112). -/
  | oraIndX (d : Byte)
  /-- ORA ($nn),Y (R112). -/
  | oraIndY (d : Byte)
  /-- EOR #$nn (R113). -/
  | eorImm (v : Byte)
  /-- EOR $nn (R113). -/
  | eorZp (d : Byte)
  /-- EOR $nn,X (R113). -/
  | eorZpX (d : Byte)
  /-- EOR $nnnn (R113). -/
  | eorAbs (w : Addr)
  /-- EOR $nnnn,X (R113). -/
  | eorAbsX (w : Addr)
  /-- EOR $nnnn,Y (R113). -/
  | eorAbsY (w : Addr)
  /-- EOR ($nn,X) (R113). -/
  | eorIndX (d : Byte)
  /-- EOR ($nn),Y (R113). -/
  | eorIndY (d : Byte)
  /-- CMP #$nn (R114). -/
  | cmpImm (v : Byte)
  /-- CMP $nn (R114). -/
  | cmpZp (d : Byte)
  /-- CMP $nn,X (R114). -/
  | cmpZpX (d : Byte)
  /-- CMP $nnnn (R114). -/
  | cmpAbs (w : Addr)
  /-- CMP $nnnn,X (R114). -/
  | cmpAbsX (w : Addr)
  /-- CMP $nnnn,Y (R114). -/
  | cmpAbsY (w : Addr)
  /-- CMP ($nn,X) (R114). -/
  | cmpIndX (d : Byte)
  /-- CMP ($nn),Y (R114). -/
  | cmpIndY (d : Byte)
  /-- CPX #$nn (R115). -/
  | cpxImm (v : Byte)
  /-- CPX $nn (R115). -/
  | cpxZp (d : Byte)
  /-- CPX $nnnn (R115). -/
  | cpxAbs (w : Addr)
  /-- CPY #$nn (R116). -/
  | cpyImm (v : Byte)
  /-- CPY $nn (R116). -/
  | cpyZp (d : Byte)
  /-- CPY $nnnn (R116). -/
  | cpyAbs (w : Addr)
  /-- BIT $nn (R117). -/
  | bitZp (d : Byte)
  /-- BIT $nnnn (R117). -/
  | bitAbs (w : Addr)
  -- Shifts, rotates, increments, decrements (47_ext_shift_incdec.md)
  /-- ASL A (R119). -/
  | aslAcc
  /-- ASL $nn (R119). -/
  | aslZp (d : Byte)
  /-- ASL $nn,X (R119). -/
  | aslZpX (d : Byte)
  /-- ASL $nnnn (R119). -/
  | aslAbs (w : Addr)
  /-- ASL $nnnn,X (R119). -/
  | aslAbsX (w : Addr)
  /-- LSR A (R120). -/
  | lsrAcc
  /-- LSR $nn (R120). -/
  | lsrZp (d : Byte)
  /-- LSR $nn,X (R120). -/
  | lsrZpX (d : Byte)
  /-- LSR $nnnn (R120). -/
  | lsrAbs (w : Addr)
  /-- LSR $nnnn,X (R120). -/
  | lsrAbsX (w : Addr)
  /-- ROL A (R121). -/
  | rolAcc
  /-- ROL $nn (R121). -/
  | rolZp (d : Byte)
  /-- ROL $nn,X (R121). -/
  | rolZpX (d : Byte)
  /-- ROL $nnnn (R121). -/
  | rolAbs (w : Addr)
  /-- ROL $nnnn,X (R121). -/
  | rolAbsX (w : Addr)
  /-- ROR A (R122). -/
  | rorAcc
  /-- ROR $nn (R122). -/
  | rorZp (d : Byte)
  /-- ROR $nn,X (R122). -/
  | rorZpX (d : Byte)
  /-- ROR $nnnn (R122). -/
  | rorAbs (w : Addr)
  /-- ROR $nnnn,X (R122). -/
  | rorAbsX (w : Addr)
  /-- INC $nn (R123). -/
  | incZp (d : Byte)
  /-- INC $nn,X (R123). -/
  | incZpX (d : Byte)
  /-- INC $nnnn (R123). -/
  | incAbs (w : Addr)
  /-- INC $nnnn,X (R123). -/
  | incAbsX (w : Addr)
  /-- DEC $nn (R124). -/
  | decZp (d : Byte)
  /-- DEC $nn,X (R124). -/
  | decZpX (d : Byte)
  /-- DEC $nnnn (R124). -/
  | decAbs (w : Addr)
  /-- DEC $nnnn,X (R124). -/
  | decAbsX (w : Addr)
  /-- INX (R125). -/
  | inx
  /-- INY (R126). -/
  | iny
  /-- DEX (R127). -/
  | dex
  /-- DEY (R128). -/
  | dey
  -- Jumps, calls, branches, software interrupt (44_jsr_stack.md, 48_ext_control.md)
  /-- JMP $nnnn (R129). -/
  | jmpAbs (w : Addr)
  /-- JMP ($nnnn) (R129). -/
  | jmpInd (w : Addr)
  /-- JSR $nnnn (R95). -/
  | jsr (w : Addr)
  /-- RTS (R130). -/
  | rts
  /-- BCC $nnnn (target) (R132). -/
  | bcc (d : Byte)
  /-- BCS $nnnn (target) (R133). -/
  | bcs (d : Byte)
  /-- BEQ $nnnn (target) (R134). -/
  | beq (d : Byte)
  /-- BNE $nnnn (target) (R135). -/
  | bne (d : Byte)
  /-- BMI $nnnn (target) (R136). -/
  | bmi (d : Byte)
  /-- BPL $nnnn (target) (R137). -/
  | bpl (d : Byte)
  /-- BVC $nnnn (target) (R138). -/
  | bvc (d : Byte)
  /-- BVS $nnnn (target) (R139). -/
  | bvs (d : Byte)
  /-- BRK (R140). -/
  | brk
  /-- RTI (R141). -/
  | rti
  /-- NOP (R142). -/
  | nop
  -- Stack and flags (49_ext_stack_flags.md)
  /-- PHA (R143). -/
  | pha
  /-- PLA (R144). -/
  | pla
  /-- PHP (R145). -/
  | php
  /-- PLP (R146). -/
  | plp
  /-- CLC (R147). -/
  | clc
  /-- SEC (R148). -/
  | sec
  /-- CLI (R149). -/
  | cli
  /-- SEI (R150). -/
  | sei
  /-- CLD (R151). -/
  | cld
  /-- SED (R152). -/
  | sed
  /-- CLV (R153). -/
  | clv
  -- The fallback row (42_dispatch_loop.md)
  /-- An opcode byte without a dispatch-table entry (R77). -/
  | unknown (op : Byte)
  deriving DecidableEq, Repr

end Sys2Proof
end

