-- ==== Sys2Proof/Decode.lean ====
section
/-! DEFINITION. The decoder, total on any bytes, through the dispatch table keyed by the whole opcode byte (42_dispatch_loop.md R76, 30_encoding.md R42 to R47), and after it the encoder, written from the same opcode map (30_encoding.md R46). -/

namespace Sys2Proof

open Sys2Proof.Machine (joinBytes lowByte highByte)

/-- What follows the opcode byte: nothing (F1), one byte (F2), or a little-endian word (F3) (R42, R44). -/
inductive OperandForm where
  | none (i : Instr)
  | byte (f : Byte → Instr)
  | word (f : Addr → Instr)

/-- One entry of the dispatch table: the opcode byte, whether BASE has it, and the instruction (R45, R46). -/
structure OpcodeRow where
  opcode : Byte
  inBase : Bool
  form   : OperandForm

/-- Opcode bytes 0x00 to 0x21 (R46). -/
def opcodeRows0 : List OpcodeRow := [
  ⟨0x00#8, false, .none .brk⟩,
  ⟨0x01#8, false, .byte .oraIndX⟩,
  ⟨0x05#8, false, .byte .oraZp⟩,
  ⟨0x06#8, false, .byte .aslZp⟩,
  ⟨0x08#8, false, .none .php⟩,
  ⟨0x09#8, false, .byte .oraImm⟩,
  ⟨0x0A#8, false, .none .aslAcc⟩,
  ⟨0x0D#8, false, .word .oraAbs⟩,
  ⟨0x0E#8, false, .word .aslAbs⟩,
  ⟨0x10#8, false, .byte .bpl⟩,
  ⟨0x11#8, false, .byte .oraIndY⟩,
  ⟨0x15#8, false, .byte .oraZpX⟩,
  ⟨0x16#8, false, .byte .aslZpX⟩,
  ⟨0x18#8, false, .none .clc⟩,
  ⟨0x19#8, false, .word .oraAbsY⟩,
  ⟨0x1D#8, false, .word .oraAbsX⟩,
  ⟨0x1E#8, false, .word .aslAbsX⟩,
  ⟨0x20#8, true, .word .jsr⟩,
  ⟨0x21#8, false, .byte .andIndX⟩]

/-- Opcode bytes 0x24 to 0x41 (R46). -/
def opcodeRows1 : List OpcodeRow := [
  ⟨0x24#8, false, .byte .bitZp⟩,
  ⟨0x25#8, false, .byte .andZp⟩,
  ⟨0x26#8, false, .byte .rolZp⟩,
  ⟨0x28#8, false, .none .plp⟩,
  ⟨0x29#8, false, .byte .andImm⟩,
  ⟨0x2A#8, false, .none .rolAcc⟩,
  ⟨0x2C#8, false, .word .bitAbs⟩,
  ⟨0x2D#8, false, .word .andAbs⟩,
  ⟨0x2E#8, false, .word .rolAbs⟩,
  ⟨0x30#8, false, .byte .bmi⟩,
  ⟨0x31#8, false, .byte .andIndY⟩,
  ⟨0x35#8, false, .byte .andZpX⟩,
  ⟨0x36#8, false, .byte .rolZpX⟩,
  ⟨0x38#8, false, .none .sec⟩,
  ⟨0x39#8, false, .word .andAbsY⟩,
  ⟨0x3D#8, false, .word .andAbsX⟩,
  ⟨0x3E#8, false, .word .rolAbsX⟩,
  ⟨0x40#8, false, .none .rti⟩,
  ⟨0x41#8, false, .byte .eorIndX⟩]

/-- Opcode bytes 0x45 to 0x65 (R46). -/
def opcodeRows2 : List OpcodeRow := [
  ⟨0x45#8, false, .byte .eorZp⟩,
  ⟨0x46#8, false, .byte .lsrZp⟩,
  ⟨0x48#8, false, .none .pha⟩,
  ⟨0x49#8, false, .byte .eorImm⟩,
  ⟨0x4A#8, false, .none .lsrAcc⟩,
  ⟨0x4C#8, false, .word .jmpAbs⟩,
  ⟨0x4D#8, false, .word .eorAbs⟩,
  ⟨0x4E#8, false, .word .lsrAbs⟩,
  ⟨0x50#8, false, .byte .bvc⟩,
  ⟨0x51#8, false, .byte .eorIndY⟩,
  ⟨0x55#8, false, .byte .eorZpX⟩,
  ⟨0x56#8, false, .byte .lsrZpX⟩,
  ⟨0x58#8, false, .none .cli⟩,
  ⟨0x59#8, false, .word .eorAbsY⟩,
  ⟨0x5D#8, false, .word .eorAbsX⟩,
  ⟨0x5E#8, false, .word .lsrAbsX⟩,
  ⟨0x60#8, false, .none .rts⟩,
  ⟨0x61#8, false, .byte .adcIndX⟩,
  ⟨0x65#8, false, .byte .adcZp⟩]

/-- Opcode bytes 0x66 to 0x86 (R46). -/
def opcodeRows3 : List OpcodeRow := [
  ⟨0x66#8, false, .byte .rorZp⟩,
  ⟨0x68#8, false, .none .pla⟩,
  ⟨0x69#8, false, .byte .adcImm⟩,
  ⟨0x6A#8, false, .none .rorAcc⟩,
  ⟨0x6C#8, false, .word .jmpInd⟩,
  ⟨0x6D#8, false, .word .adcAbs⟩,
  ⟨0x6E#8, false, .word .rorAbs⟩,
  ⟨0x70#8, false, .byte .bvs⟩,
  ⟨0x71#8, false, .byte .adcIndY⟩,
  ⟨0x75#8, false, .byte .adcZpX⟩,
  ⟨0x76#8, false, .byte .rorZpX⟩,
  ⟨0x78#8, false, .none .sei⟩,
  ⟨0x79#8, false, .word .adcAbsY⟩,
  ⟨0x7D#8, false, .word .adcAbsX⟩,
  ⟨0x7E#8, false, .word .rorAbsX⟩,
  ⟨0x81#8, false, .byte .staIndX⟩,
  ⟨0x84#8, false, .byte .styZp⟩,
  ⟨0x85#8, false, .byte .staZp⟩,
  ⟨0x86#8, false, .byte .stxZp⟩]

/-- Opcode bytes 0x88 to 0xA5 (R46). -/
def opcodeRows4 : List OpcodeRow := [
  ⟨0x88#8, false, .none .dey⟩,
  ⟨0x8A#8, false, .none .txa⟩,
  ⟨0x8C#8, false, .word .styAbs⟩,
  ⟨0x8D#8, false, .word .staAbs⟩,
  ⟨0x8E#8, false, .word .stxAbs⟩,
  ⟨0x90#8, false, .byte .bcc⟩,
  ⟨0x91#8, false, .byte .staIndY⟩,
  ⟨0x94#8, false, .byte .styZpX⟩,
  ⟨0x95#8, false, .byte .staZpX⟩,
  ⟨0x96#8, false, .byte .stxZpY⟩,
  ⟨0x98#8, false, .none .tya⟩,
  ⟨0x99#8, false, .word .staAbsY⟩,
  ⟨0x9A#8, false, .none .txs⟩,
  ⟨0x9D#8, false, .word .staAbsX⟩,
  ⟨0xA0#8, false, .byte .ldyImm⟩,
  ⟨0xA1#8, false, .byte .ldaIndX⟩,
  ⟨0xA2#8, false, .byte .ldxImm⟩,
  ⟨0xA4#8, false, .byte .ldyZp⟩,
  ⟨0xA5#8, true, .byte .ldaZp⟩]

/-- Opcode bytes 0xA6 to 0xC0 (R46). -/
def opcodeRows5 : List OpcodeRow := [
  ⟨0xA6#8, false, .byte .ldxZp⟩,
  ⟨0xA8#8, false, .none .tay⟩,
  ⟨0xA9#8, true, .byte .ldaImm⟩,
  ⟨0xAA#8, false, .none .tax⟩,
  ⟨0xAC#8, false, .word .ldyAbs⟩,
  ⟨0xAD#8, false, .word .ldaAbs⟩,
  ⟨0xAE#8, false, .word .ldxAbs⟩,
  ⟨0xB0#8, false, .byte .bcs⟩,
  ⟨0xB1#8, false, .byte .ldaIndY⟩,
  ⟨0xB4#8, false, .byte .ldyZpX⟩,
  ⟨0xB5#8, true, .byte .ldaZpX⟩,
  ⟨0xB6#8, false, .byte .ldxZpY⟩,
  ⟨0xB8#8, false, .none .clv⟩,
  ⟨0xB9#8, false, .word .ldaAbsY⟩,
  ⟨0xBA#8, false, .none .tsx⟩,
  ⟨0xBC#8, false, .word .ldyAbsX⟩,
  ⟨0xBD#8, false, .word .ldaAbsX⟩,
  ⟨0xBE#8, false, .word .ldxAbsY⟩,
  ⟨0xC0#8, false, .byte .cpyImm⟩]

/-- Opcode bytes 0xC1 to 0xE0 (R46). -/
def opcodeRows6 : List OpcodeRow := [
  ⟨0xC1#8, false, .byte .cmpIndX⟩,
  ⟨0xC4#8, false, .byte .cpyZp⟩,
  ⟨0xC5#8, false, .byte .cmpZp⟩,
  ⟨0xC6#8, false, .byte .decZp⟩,
  ⟨0xC8#8, false, .none .iny⟩,
  ⟨0xC9#8, false, .byte .cmpImm⟩,
  ⟨0xCA#8, false, .none .dex⟩,
  ⟨0xCC#8, false, .word .cpyAbs⟩,
  ⟨0xCD#8, false, .word .cmpAbs⟩,
  ⟨0xCE#8, false, .word .decAbs⟩,
  ⟨0xD0#8, false, .byte .bne⟩,
  ⟨0xD1#8, false, .byte .cmpIndY⟩,
  ⟨0xD5#8, false, .byte .cmpZpX⟩,
  ⟨0xD6#8, false, .byte .decZpX⟩,
  ⟨0xD8#8, false, .none .cld⟩,
  ⟨0xD9#8, false, .word .cmpAbsY⟩,
  ⟨0xDD#8, false, .word .cmpAbsX⟩,
  ⟨0xDE#8, false, .word .decAbsX⟩,
  ⟨0xE0#8, false, .byte .cpxImm⟩]

/-- Opcode bytes 0xE1 to 0xFE (R46). -/
def opcodeRows7 : List OpcodeRow := [
  ⟨0xE1#8, false, .byte .sbcIndX⟩,
  ⟨0xE4#8, false, .byte .cpxZp⟩,
  ⟨0xE5#8, false, .byte .sbcZp⟩,
  ⟨0xE6#8, false, .byte .incZp⟩,
  ⟨0xE8#8, false, .none .inx⟩,
  ⟨0xE9#8, false, .byte .sbcImm⟩,
  ⟨0xEA#8, false, .none .nop⟩,
  ⟨0xEC#8, false, .word .cpxAbs⟩,
  ⟨0xED#8, false, .word .sbcAbs⟩,
  ⟨0xEE#8, false, .word .incAbs⟩,
  ⟨0xF0#8, false, .byte .beq⟩,
  ⟨0xF1#8, false, .byte .sbcIndY⟩,
  ⟨0xF5#8, false, .byte .sbcZpX⟩,
  ⟨0xF6#8, false, .byte .incZpX⟩,
  ⟨0xF8#8, false, .none .sed⟩,
  ⟨0xF9#8, false, .word .sbcAbsY⟩,
  ⟨0xFD#8, false, .word .sbcAbsX⟩,
  ⟨0xFE#8, false, .word .incAbsX⟩]

/-- The dispatch table (R46): 151 rows, sorted by opcode byte. -/
def opcodeTable : List OpcodeRow :=
  opcodeRows0 ++ opcodeRows1 ++ opcodeRows2 ++ opcodeRows3 ++ opcodeRows4 ++ opcodeRows5 ++ opcodeRows6 ++ opcodeRows7

/-- The entry of an opcode byte under `TABLE` (R45, R46): the first row with that byte that the table has. -/
def lookupOpcode (t : Table) (op : Byte) : Option OpcodeRow :=
  opcodeTable.find? fun r => r.opcode == op && (r.inBase || t == .ext)

/-- The instruction whose opcode byte is `op` and whose next two bytes are `b1`, `b2`; the format
decides how many of the two belong to it (R42). A byte without an entry is `unknown` (R47). -/
def decodeBytes (t : Table) (op b1 b2 : Byte) : Instr :=
  match lookupOpcode t op with
  | none => .unknown op
  | some r =>
    match r.form with
    | .none i => i
    | .byte f => f b1
    | .word f => f (joinBytes b2 b1)

/-- How many operand bytes the format of an opcode byte has (R42, R43). -/
def operandLength (t : Table) (op : Byte) : Nat :=
  match lookupOpcode t op with
  | none => 0
  | some r =>
    match r.form with
    | .none _ => 0
    | .byte _ => 1
    | .word _ => 2

/-- Why a byte list holds no whole instruction. -/
inductive DecodeError where
  /-- No opcode byte. -/
  | empty
  /-- The opcode byte's operand bytes are not all there. -/
  | truncated (op : Byte)
  deriving DecidableEq, Repr

/-- The instruction at the head of a byte list and the bytes after it. -/
def decode (t : Table) : List Byte → Except DecodeError (Instr × List Byte)
  | [] => .error .empty
  | op :: rest =>
    match operandLength t op, rest with
    | 0, rest => .ok (decodeBytes t op 0 0, rest)
    | 1, b1 :: rest => .ok (decodeBytes t op b1 0, rest)
    | 2, b1 :: b2 :: rest => .ok (decodeBytes t op b1 b2, rest)
    | _, _ => .error (.truncated op)

/-- The bytes of an instruction (R42, R46): the opcode byte, then the operand, low byte first. -/
def encode : Instr → List Byte
  | .ldaImm v => [0xA9#8, v]
  | .ldaZp d => [0xA5#8, d]
  | .ldaZpX d => [0xB5#8, d]
  | .ldaAbs w => [0xAD#8, lowByte w, highByte w]
  | .ldaAbsX w => [0xBD#8, lowByte w, highByte w]
  | .ldaAbsY w => [0xB9#8, lowByte w, highByte w]
  | .ldaIndX d => [0xA1#8, d]
  | .ldaIndY d => [0xB1#8, d]
  | .ldxImm v => [0xA2#8, v]
  | .ldxZp d => [0xA6#8, d]
  | .ldxZpY d => [0xB6#8, d]
  | .ldxAbs w => [0xAE#8, lowByte w, highByte w]
  | .ldxAbsY w => [0xBE#8, lowByte w, highByte w]
  | .ldyImm v => [0xA0#8, v]
  | .ldyZp d => [0xA4#8, d]
  | .ldyZpX d => [0xB4#8, d]
  | .ldyAbs w => [0xAC#8, lowByte w, highByte w]
  | .ldyAbsX w => [0xBC#8, lowByte w, highByte w]
  | .staZp d => [0x85#8, d]
  | .staZpX d => [0x95#8, d]
  | .staAbs w => [0x8D#8, lowByte w, highByte w]
  | .staAbsX w => [0x9D#8, lowByte w, highByte w]
  | .staAbsY w => [0x99#8, lowByte w, highByte w]
  | .staIndX d => [0x81#8, d]
  | .staIndY d => [0x91#8, d]
  | .stxZp d => [0x86#8, d]
  | .stxZpY d => [0x96#8, d]
  | .stxAbs w => [0x8E#8, lowByte w, highByte w]
  | .styZp d => [0x84#8, d]
  | .styZpX d => [0x94#8, d]
  | .styAbs w => [0x8C#8, lowByte w, highByte w]
  | .tax => [0xAA#8]
  | .tay => [0xA8#8]
  | .txa => [0x8A#8]
  | .tya => [0x98#8]
  | .tsx => [0xBA#8]
  | .txs => [0x9A#8]
  | .adcImm v => [0x69#8, v]
  | .adcZp d => [0x65#8, d]
  | .adcZpX d => [0x75#8, d]
  | .adcAbs w => [0x6D#8, lowByte w, highByte w]
  | .adcAbsX w => [0x7D#8, lowByte w, highByte w]
  | .adcAbsY w => [0x79#8, lowByte w, highByte w]
  | .adcIndX d => [0x61#8, d]
  | .adcIndY d => [0x71#8, d]
  | .sbcImm v => [0xE9#8, v]
  | .sbcZp d => [0xE5#8, d]
  | .sbcZpX d => [0xF5#8, d]
  | .sbcAbs w => [0xED#8, lowByte w, highByte w]
  | .sbcAbsX w => [0xFD#8, lowByte w, highByte w]
  | .sbcAbsY w => [0xF9#8, lowByte w, highByte w]
  | .sbcIndX d => [0xE1#8, d]
  | .sbcIndY d => [0xF1#8, d]
  | .andImm v => [0x29#8, v]
  | .andZp d => [0x25#8, d]
  | .andZpX d => [0x35#8, d]
  | .andAbs w => [0x2D#8, lowByte w, highByte w]
  | .andAbsX w => [0x3D#8, lowByte w, highByte w]
  | .andAbsY w => [0x39#8, lowByte w, highByte w]
  | .andIndX d => [0x21#8, d]
  | .andIndY d => [0x31#8, d]
  | .oraImm v => [0x09#8, v]
  | .oraZp d => [0x05#8, d]
  | .oraZpX d => [0x15#8, d]
  | .oraAbs w => [0x0D#8, lowByte w, highByte w]
  | .oraAbsX w => [0x1D#8, lowByte w, highByte w]
  | .oraAbsY w => [0x19#8, lowByte w, highByte w]
  | .oraIndX d => [0x01#8, d]
  | .oraIndY d => [0x11#8, d]
  | .eorImm v => [0x49#8, v]
  | .eorZp d => [0x45#8, d]
  | .eorZpX d => [0x55#8, d]
  | .eorAbs w => [0x4D#8, lowByte w, highByte w]
  | .eorAbsX w => [0x5D#8, lowByte w, highByte w]
  | .eorAbsY w => [0x59#8, lowByte w, highByte w]
  | .eorIndX d => [0x41#8, d]
  | .eorIndY d => [0x51#8, d]
  | .cmpImm v => [0xC9#8, v]
  | .cmpZp d => [0xC5#8, d]
  | .cmpZpX d => [0xD5#8, d]
  | .cmpAbs w => [0xCD#8, lowByte w, highByte w]
  | .cmpAbsX w => [0xDD#8, lowByte w, highByte w]
  | .cmpAbsY w => [0xD9#8, lowByte w, highByte w]
  | .cmpIndX d => [0xC1#8, d]
  | .cmpIndY d => [0xD1#8, d]
  | .cpxImm v => [0xE0#8, v]
  | .cpxZp d => [0xE4#8, d]
  | .cpxAbs w => [0xEC#8, lowByte w, highByte w]
  | .cpyImm v => [0xC0#8, v]
  | .cpyZp d => [0xC4#8, d]
  | .cpyAbs w => [0xCC#8, lowByte w, highByte w]
  | .bitZp d => [0x24#8, d]
  | .bitAbs w => [0x2C#8, lowByte w, highByte w]
  | .aslAcc => [0x0A#8]
  | .aslZp d => [0x06#8, d]
  | .aslZpX d => [0x16#8, d]
  | .aslAbs w => [0x0E#8, lowByte w, highByte w]
  | .aslAbsX w => [0x1E#8, lowByte w, highByte w]
  | .lsrAcc => [0x4A#8]
  | .lsrZp d => [0x46#8, d]
  | .lsrZpX d => [0x56#8, d]
  | .lsrAbs w => [0x4E#8, lowByte w, highByte w]
  | .lsrAbsX w => [0x5E#8, lowByte w, highByte w]
  | .rolAcc => [0x2A#8]
  | .rolZp d => [0x26#8, d]
  | .rolZpX d => [0x36#8, d]
  | .rolAbs w => [0x2E#8, lowByte w, highByte w]
  | .rolAbsX w => [0x3E#8, lowByte w, highByte w]
  | .rorAcc => [0x6A#8]
  | .rorZp d => [0x66#8, d]
  | .rorZpX d => [0x76#8, d]
  | .rorAbs w => [0x6E#8, lowByte w, highByte w]
  | .rorAbsX w => [0x7E#8, lowByte w, highByte w]
  | .incZp d => [0xE6#8, d]
  | .incZpX d => [0xF6#8, d]
  | .incAbs w => [0xEE#8, lowByte w, highByte w]
  | .incAbsX w => [0xFE#8, lowByte w, highByte w]
  | .decZp d => [0xC6#8, d]
  | .decZpX d => [0xD6#8, d]
  | .decAbs w => [0xCE#8, lowByte w, highByte w]
  | .decAbsX w => [0xDE#8, lowByte w, highByte w]
  | .inx => [0xE8#8]
  | .iny => [0xC8#8]
  | .dex => [0xCA#8]
  | .dey => [0x88#8]
  | .jmpAbs w => [0x4C#8, lowByte w, highByte w]
  | .jmpInd w => [0x6C#8, lowByte w, highByte w]
  | .jsr w => [0x20#8, lowByte w, highByte w]
  | .rts => [0x60#8]
  | .bcc d => [0x90#8, d]
  | .bcs d => [0xB0#8, d]
  | .beq d => [0xF0#8, d]
  | .bne d => [0xD0#8, d]
  | .bmi d => [0x30#8, d]
  | .bpl d => [0x10#8, d]
  | .bvc d => [0x50#8, d]
  | .bvs d => [0x70#8, d]
  | .brk => [0x00#8]
  | .rti => [0x40#8]
  | .nop => [0xEA#8]
  | .pha => [0x48#8]
  | .pla => [0x68#8]
  | .php => [0x08#8]
  | .plp => [0x28#8]
  | .clc => [0x18#8]
  | .sec => [0x38#8]
  | .cli => [0x58#8]
  | .sei => [0x78#8]
  | .cld => [0xD8#8]
  | .sed => [0xF8#8]
  | .clv => [0xB8#8]
  | .unknown op => [op]

/-- Byte `k` of an instruction word as the opcode table numbers its bits: byte 0 is bits 7 to 0. -/
def wordByte (w k : Nat) : Byte := BitVec.ofNat 8 (w / 256 ^ k)

/-- The longest instruction, in bytes (R42). -/
def maxInstrBytes : Nat := 3

/-- The instruction the decoder reads, with TABLE = EXT, from an instruction word of `nbits` bits; the
bits above are 0. Refused where no instruction has that many bits. -/
def decodeTableWord (nbits w : Nat) : Option Instr :=
  if 8 ≤ nbits ∧ nbits ≤ 8 * maxInstrBytes then
    let v := w % 2 ^ nbits
    match decode .ext [wordByte v 0, wordByte v 1, wordByte v 2] with
    | .ok (i, _) => some i
    | .error _ => none
  else none

end Sys2Proof
end

