-- ==== Sys2Proof/Machine/Loop.lean ====
section
/-! DEFINITION. The parts of the dispatch loop and of the host's operations that one step is made of (42_dispatch_loop.md R73 to R84, 70_reset_and_hazards.md R168, R169, 20_memory.md R41). -/

namespace Sys2Proof.Machine

/-! ### A slot -/

/-- The instruction whose opcode byte PC designates, under the machine's TABLE; its operand bytes
follow at consecutive addresses modulo 65536 (30_encoding.md R42, R43; log 7). -/
def instrAt (s : State) : Instr :=
  decodeBytes s.cfg.table (memRead s s.pc) (memRead s (s.pc + 1)) (memRead s (s.pc + 2))

/-- The state of the loop while the instruction runs: an unknown opcode is reported in Dispatching,
a table entry runs in Executing (R74, R75). -/
def phaseOf : Instr → RunState
  | .unknown _ => .dispatching
  | _ => .executing

/-- `op <- FetchByte()` and the lookup: the state in which a meaning starts (R74). -/
def enterSlot (s : State) : State := (fetchByte s).2.setRun (phaseOf (instrAt s))

/-- The end of a slot: back to Fetching, unless the slot ended Execute (R74, R75). -/
def endSlot : Result → Result
  | .next t => .next (if t.run = .halted then t else t.setRun .fetching)
  | .fault r => .fault r
  | .refused r => .refused r

/-- The budget test at the boundary ends Execute (R78). -/
def endExecute (s : State) : State := s.setRun .halted

/-! ### The host -/

/-- `Reset()` on any state (70_reset_and_hazards.md R168). CYC is not set by Reset (10_state.md R21),
nor is the last budget; the parameters are configuration, and what the host does next stays. -/
def hostReset (s : State) : State :=
  { State.reset with cyc := s.cyc, budget := s.budget, cfg := s.cfg, script := s.script }

/-- The start of `Execute(budget)`: with RESET_PC_MODE = vector the first Execute after Reset loads PC
from the word at 0xFFFC, charging nothing; CYC takes the budget; with no budget the loop is not
entered (R73, R74, R82; 70_reset_and_hazards.md R169; log 11, log 18). -/
def beginExecute (s : State) (budget : Int) : State :=
  let pc := if s.cfg.resetPcMode = .vector ∧ s.run = .idle then memReadWord s 0xFFFC#16 else s.pc
  { s with pc := pc, cyc := budget, budget := budget,
           run := if 0 < budget then .fetching else .halted }

/-- One operation of the host (00_scope.md R3). -/
def hostOp (op : HostOp) (s : State) : State :=
  match op with
  | .reset => hostReset s
  | .poke addr v => memWrite s addr v
  | .execute budget => beginExecute s budget

/-- Outside Execute the host acts: its next operation is done, or, with none left, everything stays
as it is (60_exceptions.md R167, log 3). -/
def hostTurn (s : State) : State :=
  match s.script with
  | [] => s
  | op :: rest => hostOp op { s with script := rest }

/-- What Execute returns: the cycles consumed, `budget - CYC` (R81). -/
def State.returned (s : State) : Int := s.budget - s.cyc

/-! ### Loading one instruction -/

/-- The bytes of an instruction word written at PC, as the host writes a program (20_memory.md R41). -/
def pokeWordAtPc (s : State) (v : Nat) : State :=
  memWrite (memWrite (memWrite s s.pc (wordByte v 0)) (s.pc + 1) (wordByte v 1))
    (s.pc + 2) (wordByte v 2)

/-- The budget of the Execute that a loaded instruction runs in. DESIGN CHOICE (log 4). -/
def loadBudget : Int := 1000000

/-- Inside Execute with budget left, under the full opcode table: what running a loaded instruction
takes (log 4). -/
def readyToFetch (s : State) : State :=
  let t := { s with cfg := { s.cfg with table := .ext } }
  if t.run = .fetching ∧ 0 < t.cyc then t
  else { t with run := .fetching, cyc := loadBudget, budget := loadBudget }

end Sys2Proof.Machine
end

