-- ==== Sys2Proof/Machine/Step.lean ====
section
/-! DEFINITION. One step: a slot of the dispatch loop, the end of Execute at its boundary, or an operation of the host outside Execute (42_dispatch_loop.md R74, R75, R80). -/

namespace Sys2Proof.Machine

/-- One step of the machine. Fetching, Dispatching and Executing are one running condition and a slot
is one step (10_state.md R18); the budget is tested before a slot and nowhere else (R78). -/
def step (s : State) : Host.Outcome State Fault Refusal :=
  match s.run with
  | .idle | .halted => .next (hostTurn s)
  | .fetching | .dispatching | .executing =>
    if s.cyc ≤ 0 then .next (endExecute s) else endSlot (exec (instrAt s) (enterSlot s))

/-- `s` with the instruction whose bits are `w` where the next opcode is fetched, inside Execute
(log 4). -/
def State.withFetchWord (s : State) (nbits w : Nat) : State :=
  readyToFetch (pokeWordAtPc s (w % 2 ^ nbits))

end Sys2Proof.Machine
end

