-- ==== Sys2Proof/Safety.lean ====
section
/-! DEFINITION. The terms in which claims are stated: safe runs, the invariants, and the spec's own account of operands, cycles and written state, kept apart from the machine's definitions (40_fetch_addressing.md R66, 30_encoding.md R46, 10_state.md R12). -/

namespace Sys2Proof.Safety

open Sys2Proof.Machine

/-! ### Safe runs and invariants -/

/-- A parameter set under which the spec gives every step an effect (log 8, log 9). -/
def PlainConfig (c : Config) : Prop := c.stackCheck = .off ∧ c.decimalPolicy = .ignore

/-- `s` is safe: its step answers a next state. -/
def Safe (s : State) : Prop := ∃ t, step s = .next t

/-- The loop rests only at a boundary between slots (10_state.md R18, log 6). -/
def AtBoundary (s : State) : Prop := s.run = .idle ∨ s.run = .fetching ∨ s.run = .halted

/-- `M`: the largest instruction cost of the table in use (42_dispatch_loop.md R79). -/
def maxCost : Table → Int
  | .base => 6
  | .ext => 7

/-- The Core runs: Fetching, Dispatching or Executing (10_state.md R18). -/
def InsideExecute (s : State) : Prop :=
  s.run = .fetching ∨ s.run = .dispatching ∨ s.run = .executing

/-- The Core is outside Execute: Idle or Halted (60_exceptions.md R167). -/
def OutsideExecute (s : State) : Prop := s.run = .idle ∨ s.run = .halted

/-- The opcode byte has no dispatch-table entry, by the lists of 30_encoding.md R45 and R47. -/
def NoEntry (t : Table) (op : Byte) : Prop :=
  (t = .base ∧ op ∉ baseOpcodes) ∨ (t = .ext ∧ op ∈ undocumentedOpcodes)

/-- Where the remaining budget can stand at a boundary (10_state.md R17, 42_dispatch_loop.md R79,
R81, R82). -/
structure BudgetInv (s : State) : Prop where
  /-- The overshoot of a run is at most M - 1. -/
  overshoot : 0 < s.budget → -(maxCost s.cfg.table - 1) ≤ s.cyc
  /-- No cycle is ever given back. -/
  consumed : s.cyc ≤ s.budget
  /-- A budget that is not positive stays untouched. -/
  untouched : s.budget ≤ 0 → s.cyc = s.budget
  /-- The loop runs only on a positive budget. -/
  positive : s.run = .fetching → 0 < s.budget
  /-- With UNKNOWN_POLICY = lenient a run ends by its budget alone. -/
  exhausted : s.run = .halted → s.cfg.unknownPolicy = .lenient → s.cyc ≤ 0

/-- The invariant of a machine: memory in canonical form, the loop at a boundary, the budget in range. -/
structure Inv (s : State) : Prop where
  memory   : s.mem.wf = true
  boundary : AtBoundary s
  budget   : BudgetInv s

/-- With TABLE = BASE the index registers and every flag but Z and N keep their reset value 0
(10_state.md R7, R12). -/
def BaseQuiet (s : State) : Prop :=
  s.cfg.table = .base →
    s.x = 0#8 ∧ s.y = 0#8 ∧ s.p.c = false ∧ s.p.v = false ∧ s.p.i = false ∧ s.p.d = false ∧
      s.p.b = false

/-! ### Registers and flags by name -/

/-- A general register or the stack pointer. -/
inductive Reg where
  | a
  | x
  | y
  | sp
  deriving DecidableEq, Repr

/-- The value of a register. -/
def getReg (s : State) : Reg → Byte
  | .a => s.a
  | .x => s.x
  | .y => s.y
  | .sp => s.sp

/-- A register written, everything else unchanged. -/
def putReg (r : Reg) (v : Byte) (s : State) : State :=
  match r with
  | .a => { s with a := v }
  | .x => { s with x := v }
  | .y => { s with y := v }
  | .sp => { s with sp := v }

/-- A status flag. -/
inductive FlagName where
  | n
  | v
  | b
  | d
  | i
  | z
  | c
  deriving DecidableEq, Repr

/-- The value of a flag. -/
def getFlag (p : Flags) : FlagName → Bool
  | .n => p.n
  | .v => p.v
  | .b => p.b
  | .d => p.d
  | .i => p.i
  | .z => p.z
  | .c => p.c

/-- A flag written, the others unchanged. -/
def putFlag (p : Flags) (f : FlagName) (value : Bool) : Flags :=
  match f with
  | .n => { p with n := value }
  | .v => { p with v := value }
  | .b => { p with b := value }
  | .d => { p with d := value }
  | .i => { p with i := value }
  | .z => { p with z := value }
  | .c => { p with c := value }

/-- The flags as one number: N 128, V 64, 32 always, B 16, D 8, I 4, Z 2, C 1 (10_state.md R13). -/
def flagNumber (p : Flags) (b : Bool) : Nat :=
  128 * p.n.toNat + 64 * p.v.toNat + 32 + 16 * b.toNat + 8 * p.d.toNat + 4 * p.i.toNat +
    2 * p.z.toNat + p.c.toNat

/-- The flags a pulled byte gives; P.B is not written (10_state.md R13). -/
def pulledFlags (p : Flags) (byte : Byte) : Flags :=
  { n := byte.toNat.testBit 7, v := byte.toNat.testBit 6, b := p.b, d := byte.toNat.testBit 3,
    i := byte.toNat.testBit 2, z := byte.toNat.testBit 1, c := byte.toNat.testBit 0 }

/-- Z and N as the shared rule sets them from a value: Z iff it is 0, N iff it is negative as a signed
byte (41_flag_rules.md R67). -/
def flagsNZ (p : Flags) (v : Byte) : Flags :=
  { p with z := decide (v = 0#8), n := decide (v.toInt < 0) }

/-! ### The instruction forms, family by family -/

/-- The loads: destination and operand (R85 to R88, R97 to R99). -/
def loadForm : Instr → Option (Reg × Source)
  | .ldaImm v => some (.a, .imm v)
  | .ldaZp d => some (.a, .mem (.zp d))
  | .ldaZpX d => some (.a, .mem (.zpX d))
  | .ldaAbs w => some (.a, .mem (.abs w))
  | .ldaAbsX w => some (.a, .mem (.absX w))
  | .ldaAbsY w => some (.a, .mem (.absY w))
  | .ldaIndX d => some (.a, .mem (.indX d))
  | .ldaIndY d => some (.a, .mem (.indY d))
  | .ldxImm v => some (.x, .imm v)
  | .ldxZp d => some (.x, .mem (.zp d))
  | .ldxZpY d => some (.x, .mem (.zpY d))
  | .ldxAbs w => some (.x, .mem (.abs w))
  | .ldxAbsY w => some (.x, .mem (.absY w))
  | .ldyImm v => some (.y, .imm v)
  | .ldyZp d => some (.y, .mem (.zp d))
  | .ldyZpX d => some (.y, .mem (.zpX d))
  | .ldyAbs w => some (.y, .mem (.abs w))
  | .ldyAbsX w => some (.y, .mem (.absX w))
  | _ => none

/-- The stores: source register and destination (R100 to R102). -/
def storeForm : Instr → Option (Reg × Mode)
  | .staZp d => some (.a, .zp d)
  | .staZpX d => some (.a, .zpX d)
  | .staAbs w => some (.a, .abs w)
  | .staAbsX w => some (.a, .absX w)
  | .staAbsY w => some (.a, .absY w)
  | .staIndX d => some (.a, .indX d)
  | .staIndY d => some (.a, .indY d)
  | .stxZp d => some (.x, .zp d)
  | .stxZpY d => some (.x, .zpY d)
  | .stxAbs w => some (.x, .abs w)
  | .styZp d => some (.y, .zp d)
  | .styZpX d => some (.y, .zpX d)
  | .styAbs w => some (.y, .abs w)
  | _ => none

/-- The transfers that set Z and N: destination and source (R103 to R107). -/
def transferForm : Instr → Option (Reg × Reg)
  | .tax => some (.x, .a)
  | .tay => some (.y, .a)
  | .txa => some (.a, .x)
  | .tya => some (.a, .y)
  | .tsx => some (.x, .sp)
  | _ => none

/-- ADC (R109). -/
def adcForm : Instr → Option Source
  | .adcImm v => some (.imm v)
  | .adcZp d => some (.mem (.zp d))
  | .adcZpX d => some (.mem (.zpX d))
  | .adcAbs w => some (.mem (.abs w))
  | .adcAbsX w => some (.mem (.absX w))
  | .adcAbsY w => some (.mem (.absY w))
  | .adcIndX d => some (.mem (.indX d))
  | .adcIndY d => some (.mem (.indY d))
  | _ => none

/-- SBC (R110). -/
def sbcForm : Instr → Option Source
  | .sbcImm v => some (.imm v)
  | .sbcZp d => some (.mem (.zp d))
  | .sbcZpX d => some (.mem (.zpX d))
  | .sbcAbs w => some (.mem (.abs w))
  | .sbcAbsX w => some (.mem (.absX w))
  | .sbcAbsY w => some (.mem (.absY w))
  | .sbcIndX d => some (.mem (.indX d))
  | .sbcIndY d => some (.mem (.indY d))
  | _ => none

/-- The three bitwise operations. -/
inductive LogicOp where
  | and
  | or
  | xor
  deriving DecidableEq, Repr

/-- One bit of a bitwise operation. -/
def logicBit : LogicOp → Bool → Bool → Bool
  | .and, p, q => p && q
  | .or, p, q => p || q
  | .xor, p, q => p != q

/-- AND, ORA, EOR (R111 to R113). -/
def logicForm : Instr → Option (LogicOp × Source)
  | .andImm v => some (.and, .imm v)
  | .andZp d => some (.and, .mem (.zp d))
  | .andZpX d => some (.and, .mem (.zpX d))
  | .andAbs w => some (.and, .mem (.abs w))
  | .andAbsX w => some (.and, .mem (.absX w))
  | .andAbsY w => some (.and, .mem (.absY w))
  | .andIndX d => some (.and, .mem (.indX d))
  | .andIndY d => some (.and, .mem (.indY d))
  | .oraImm v => some (.or, .imm v)
  | .oraZp d => some (.or, .mem (.zp d))
  | .oraZpX d => some (.or, .mem (.zpX d))
  | .oraAbs w => some (.or, .mem (.abs w))
  | .oraAbsX w => some (.or, .mem (.absX w))
  | .oraAbsY w => some (.or, .mem (.absY w))
  | .oraIndX d => some (.or, .mem (.indX d))
  | .oraIndY d => some (.or, .mem (.indY d))
  | .eorImm v => some (.xor, .imm v)
  | .eorZp d => some (.xor, .mem (.zp d))
  | .eorZpX d => some (.xor, .mem (.zpX d))
  | .eorAbs w => some (.xor, .mem (.abs w))
  | .eorAbsX w => some (.xor, .mem (.absX w))
  | .eorAbsY w => some (.xor, .mem (.absY w))
  | .eorIndX d => some (.xor, .mem (.indX d))
  | .eorIndY d => some (.xor, .mem (.indY d))
  | _ => none

/-- CMP, CPX, CPY: the register compared and the operand (R114 to R116). -/
def compareForm : Instr → Option (Reg × Source)
  | .cmpImm v => some (.a, .imm v)
  | .cmpZp d => some (.a, .mem (.zp d))
  | .cmpZpX d => some (.a, .mem (.zpX d))
  | .cmpAbs w => some (.a, .mem (.abs w))
  | .cmpAbsX w => some (.a, .mem (.absX w))
  | .cmpAbsY w => some (.a, .mem (.absY w))
  | .cmpIndX d => some (.a, .mem (.indX d))
  | .cmpIndY d => some (.a, .mem (.indY d))
  | .cpxImm v => some (.x, .imm v)
  | .cpxZp d => some (.x, .mem (.zp d))
  | .cpxAbs w => some (.x, .mem (.abs w))
  | .cpyImm v => some (.y, .imm v)
  | .cpyZp d => some (.y, .mem (.zp d))
  | .cpyAbs w => some (.y, .mem (.abs w))
  | _ => none

/-- BIT (R117). -/
def bitForm : Instr → Option Source
  | .bitZp d => some (.mem (.zp d))
  | .bitAbs w => some (.mem (.abs w))
  | _ => none

/-- The read-modify-write operations (R118). -/
inductive RmwOp where
  | asl
  | lsr
  | rol
  | ror
  | inc
  | dec
  deriving DecidableEq, Repr

/-- The value written and the new C, as the rules compute them on numbers (R119 to R124). -/
def rmwValue (op : RmwOp) (v : Byte) (c : Bool) : Nat × Bool :=
  match op with
  | .asl => (v.toNat * 2 % 256, v.getLsbD 7)
  | .lsr => (v.toNat / 2, v.getLsbD 0)
  | .rol => (v.toNat * 2 % 256 + c.toNat, v.getLsbD 7)
  | .ror => (v.toNat / 2 + 128 * c.toNat, v.getLsbD 0)
  | .inc => ((v.toNat + 1) % 256, c)
  | .dec => ((v.toNat + 255) % 256, c)

/-- The accumulator forms (R118). -/
def rmwAccForm : Instr → Option RmwOp
  | .aslAcc => some .asl
  | .lsrAcc => some .lsr
  | .rolAcc => some .rol
  | .rorAcc => some .ror
  | _ => none

/-- The memory forms (R118). -/
def rmwForm : Instr → Option (RmwOp × Mode)
  | .aslZp d => some (.asl, .zp d)
  | .aslZpX d => some (.asl, .zpX d)
  | .aslAbs w => some (.asl, .abs w)
  | .aslAbsX w => some (.asl, .absX w)
  | .lsrZp d => some (.lsr, .zp d)
  | .lsrZpX d => some (.lsr, .zpX d)
  | .lsrAbs w => some (.lsr, .abs w)
  | .lsrAbsX w => some (.lsr, .absX w)
  | .rolZp d => some (.rol, .zp d)
  | .rolZpX d => some (.rol, .zpX d)
  | .rolAbs w => some (.rol, .abs w)
  | .rolAbsX w => some (.rol, .absX w)
  | .rorZp d => some (.ror, .zp d)
  | .rorZpX d => some (.ror, .zpX d)
  | .rorAbs w => some (.ror, .abs w)
  | .rorAbsX w => some (.ror, .absX w)
  | .incZp d => some (.inc, .zp d)
  | .incZpX d => some (.inc, .zpX d)
  | .incAbs w => some (.inc, .abs w)
  | .incAbsX w => some (.inc, .absX w)
  | .decZp d => some (.dec, .zp d)
  | .decZpX d => some (.dec, .zpX d)
  | .decAbs w => some (.dec, .abs w)
  | .decAbsX w => some (.dec, .absX w)
  | _ => none

/-- INX, INY, DEX, DEY: the register and what is added to it modulo 256 (R125 to R128). -/
def indexStepForm : Instr → Option (Reg × Nat)
  | .inx => some (.x, 1)
  | .iny => some (.y, 1)
  | .dex => some (.x, 255)
  | .dey => some (.y, 255)
  | _ => none

/-- The branches: the flag tested, the value that takes the branch, the displacement (R131 to R139). -/
def branchForm : Instr → Option (FlagName × Bool × Byte)
  | .bcc d => some (.c, false, d)
  | .bcs d => some (.c, true, d)
  | .beq d => some (.z, true, d)
  | .bne d => some (.z, false, d)
  | .bmi d => some (.n, true, d)
  | .bpl d => some (.n, false, d)
  | .bvc d => some (.v, false, d)
  | .bvs d => some (.v, true, d)
  | _ => none

/-- The flag instructions: the flag and the value written (R147 to R153). -/
def flagForm : Instr → Option (FlagName × Bool)
  | .clc => some (.c, false)
  | .sec => some (.c, true)
  | .cli => some (.i, false)
  | .sei => some (.i, true)
  | .cld => some (.d, false)
  | .sed => some (.d, true)
  | .clv => some (.v, false)
  | _ => none

/-- The operand of an instruction that only reads it. -/
def readForm (i : Instr) : Option Source :=
  ((loadForm i).map (·.2)) <|> adcForm i <|> sbcForm i <|> ((logicForm i).map (·.2)) <|>
    ((compareForm i).map (·.2)) <|> bitForm i

/-! ### Formats (30_encoding.md R42) -/

/-- Format F1: the opcode byte alone. -/
def HasF1 (i : Instr) (op : Byte) : Prop := encode i = [op]

/-- Format F2: the opcode byte and one operand byte. -/
def HasF2 (f : Byte → Instr) (op : Byte) : Prop := ∀ d, encode (f d) = [op, d]

/-- Format F3: the opcode byte and an operand word, low byte first. -/
def HasF3 (f : Addr → Instr) (op : Byte) : Prop :=
  ∀ w : Addr, encode (f w) = [op, BitVec.ofNat 8 (w.toNat % 256), BitVec.ofNat 8 (w.toNat / 256)]

/-! ### Effective addresses and operands, by the table of R66 -/

/-- The little-endian word whose low byte lies at `lo` and whose high byte at `hi`. -/
def wordAt (s : State) (lo hi : Nat) : Nat := (s.mem.read hi).toNat * 256 + (s.mem.read lo).toNat

/-- The stack byte at `S + k`, inside page 1 (44_jsr_stack.md R89). -/
def stackByte (s : State) (k : Int) : Byte := s.mem.read (256 + ((s.sp.toNat + k) % 256).toNat)

/-- Memory after the bytes of a list are pushed one after the other (44_jsr_stack.md R90, R92). -/
def pushed (m : Memory) (sp : Nat) : List Byte → Memory
  | [] => m
  | v :: rest => pushed (m.write (256 + sp % 256) v) (sp + 1) rest

/-- The low and the high byte of a 16-bit number. -/
def wordBytes (n : Nat) : List Byte := [BitVec.ofNat 8 (n % 256), BitVec.ofNat 8 (n / 256 % 256)]

/-- The base an index register is added to at 16 bits. -/
def indexBase (s : State) : Mode → Option (Nat × Nat)
  | .absX w => some (w.toNat, s.x.toNat)
  | .absY w => some (w.toNat, s.y.toNat)
  | .indY d => some (wordAt s d.toNat ((d.toNat + 1) % 256), s.y.toNat)
  | _ => none

/-- The effective address of a mode, on numbers (40_fetch_addressing.md R57 to R60, R64 to R66). -/
def effectiveAddress (s : State) (m : Mode) : Nat :=
  match m with
  | .zp d => d.toNat
  | .zpX d => (d.toNat + s.x.toNat) % 256
  | .zpY d => (d.toNat + s.y.toNat) % 256
  | .abs w => w.toNat
  | .absX w => (w.toNat + s.x.toNat) % 65536
  | .absY w => (w.toNat + s.y.toNat) % 65536
  | .indX d =>
    wordAt s ((d.toNat + s.x.toNat) % 256) (((d.toNat + s.x.toNat) % 256 + 1) % 256)
  | .indY d => (wordAt s d.toNat ((d.toNat + 1) % 256) + s.y.toNat) % 65536

/-- The high byte of an indexed address changes by the index addition (00_scope.md section 7, R60). -/
def crossesPage (s : State) (m : Mode) : Bool :=
  match indexBase s m with
  | some (base, index) => (base + index) % 65536 / 256 != base / 256
  | none => false

/-- The operand value (R66). -/
def operandValue (s : State) : Source → Byte
  | .imm v => v
  | .mem m => s.mem.read (effectiveAddress s m)

/-- The operand bytes of a mode (R66). -/
def modeBytes : Mode → Nat
  | .abs _ | .absX _ | .absY _ => 2
  | .zp _ | .zpX _ | .zpY _ | .indX _ | .indY _ => 1

/-- The operand bytes of an operand (R66). -/
def sourceBytes : Source → Nat
  | .imm _ => 1
  | .mem m => modeBytes m

/-- `+p`: the conditional page-cross cycle (R60, R65). -/
def pageCycle (s : State) (m : Mode) : Nat := if crossesPage s m then 1 else 0

/-- The cycles of a load, its opcode fetch included (R66). -/
def loadCycles (s : State) : Source → Nat
  | .imm _ => 2
  | .mem (.zp _) => 3
  | .mem (.zpX _) => 4
  | .mem (.zpY _) => 4
  | .mem (.abs _) => 4
  | .mem (.absX w) => 4 + pageCycle s (.absX w)
  | .mem (.absY w) => 4 + pageCycle s (.absY w)
  | .mem (.indX _) => 6
  | .mem (.indY d) => 5 + pageCycle s (.indY d)

/-- The cycles of a store, its opcode fetch included (R100 to R102). -/
def storeCycles : Mode → Nat
  | .zp _ => 3
  | .zpX _ | .zpY _ | .abs _ => 4
  | .absX _ | .absY _ => 5
  | .indX _ | .indY _ => 6

/-- The state after a reading instruction's operand, as far as PC and CYC go: the opcode fetch has
already moved PC by 1 and charged 1. -/
def afterRead (s : State) (src : Source) : State :=
  { s with pc := s.pc + BitVec.ofNat 16 (sourceBytes src), cyc := s.cyc + 1 - loadCycles s src }

/-! ### Cycles of a whole slot -/

/-- The cycles column of the opcode map (30_encoding.md R46); 1 for an unknown opcode (R84). -/
def baseCycles : Instr → Nat
  | .ldaImm _ | .ldxImm _ | .ldyImm _ | .tax | .tay | .txa | .tya | .tsx | .txs | .adcImm _
  | .sbcImm _ | .andImm _ | .oraImm _ | .eorImm _ | .cmpImm _ | .cpxImm _ | .cpyImm _ | .aslAcc
  | .lsrAcc | .rolAcc | .rorAcc | .inx | .iny | .dex | .dey | .bcc _ | .bcs _ | .beq _ | .bne _
  | .bmi _ | .bpl _ | .bvc _ | .bvs _ | .nop | .clc | .sec | .cli | .sei | .cld | .sed | .clv => 2
  | .ldaZp _ | .ldxZp _ | .ldyZp _ | .staZp _ | .stxZp _ | .styZp _ | .adcZp _ | .sbcZp _
  | .andZp _ | .oraZp _ | .eorZp _ | .cmpZp _ | .cpxZp _ | .cpyZp _ | .bitZp _ | .jmpAbs _ | .pha
  | .php => 3
  | .ldaZpX _ | .ldaAbs _ | .ldaAbsX _ | .ldaAbsY _ | .ldxZpY _ | .ldxAbs _ | .ldxAbsY _
  | .ldyZpX _ | .ldyAbs _ | .ldyAbsX _ | .staZpX _ | .staAbs _ | .stxZpY _ | .stxAbs _ | .styZpX _
  | .styAbs _ | .adcZpX _ | .adcAbs _ | .adcAbsX _ | .adcAbsY _ | .sbcZpX _ | .sbcAbs _
  | .sbcAbsX _ | .sbcAbsY _ | .andZpX _ | .andAbs _ | .andAbsX _ | .andAbsY _ | .oraZpX _
  | .oraAbs _ | .oraAbsX _ | .oraAbsY _ | .eorZpX _ | .eorAbs _ | .eorAbsX _ | .eorAbsY _
  | .cmpZpX _ | .cmpAbs _ | .cmpAbsX _ | .cmpAbsY _ | .cpxAbs _ | .cpyAbs _ | .bitAbs _ | .pla
  | .plp => 4
  | .ldaIndY _ | .staAbsX _ | .staAbsY _ | .adcIndY _ | .sbcIndY _ | .andIndY _ | .oraIndY _
  | .eorIndY _ | .cmpIndY _ | .aslZp _ | .lsrZp _ | .rolZp _ | .rorZp _ | .incZp _ | .decZp _
  | .jmpInd _ => 5
  | .ldaIndX _ | .staIndX _ | .staIndY _ | .adcIndX _ | .sbcIndX _ | .andIndX _ | .oraIndX _
  | .eorIndX _ | .cmpIndX _ | .aslZpX _ | .aslAbs _ | .lsrZpX _ | .lsrAbs _ | .rolZpX _ | .rolAbs _
  | .rorZpX _ | .rorAbs _ | .incZpX _ | .incAbs _ | .decZpX _ | .decAbs _ | .jsr _ | .rts | .rti => 6
  | .aslAbsX _ | .lsrAbsX _ | .rolAbsX _ | .rorAbsX _ | .incAbsX _ | .decAbsX _ | .brk => 7
  | .unknown _ => 1

/-- The branch is taken. -/
def taken (s : State) (f : FlagName) (value : Bool) : Bool := getFlag s.p f == value

/-- The target of a branch: PC is at its operand (48_ext_control.md R131). -/
def branchTarget (s : State) (d : Byte) : Int := (s.pc.toNat + 1 + d.toInt) % 65536

/-- `+p` and `+b`: the data-dependent cycles (30_encoding.md R46, 48_ext_control.md R131). PC is the
opcode address plus 1. -/
def extraCycles (s : State) (i : Instr) : Nat :=
  match readForm i, branchForm i with
  | some (.mem m), _ => pageCycle s m
  | _, some (f, value, d) =>
    if taken s f value then
      if branchTarget s d / 256 = ((s.pc.toNat : Int) + 1) % 65536 / 256 then 1 else 2
    else 0
  | _, _ => 0

/-! ### What an instruction may write -/

/-- How many bytes an instruction pushes. -/
def pushes : Instr → Nat
  | .pha | .php => 1
  | .jsr _ => 2
  | .brk => 3
  | _ => 0

/-- How many bytes an instruction pulls. -/
def pulls : Instr → Nat
  | .pla | .plp => 1
  | .rts => 2
  | .rti => 3
  | _ => 0

/-- A written by a rule of its own: ADC, SBC, the bitwise operations, the accumulator shifts, PLA. -/
def writesA (i : Instr) : Bool :=
  (adcForm i).isSome || (sbcForm i).isSome || (logicForm i).isSome || (rmwAccForm i).isSome ||
    i == .pla

/-- S written: TXS, and every push and pull. -/
def writesSp (i : Instr) : Bool := i == .txs || pushes i != 0 || pulls i != 0

/-- The registers an instruction writes, PC apart. -/
def writesReg (i : Instr) (r : Reg) : Bool :=
  (loadForm i).any (·.1 == r) || (transferForm i).any (·.1 == r) ||
    (indexStepForm i).any (·.1 == r) || (r == .a && writesA i) || (r == .sp && writesSp i)

/-- Z and N set by the shared rule or by a compare, BIT or a pull (10_state.md R12). -/
def writesNZ (i : Instr) : Bool :=
  (readForm i).isSome || (transferForm i).isSome || (rmwAccForm i).isSome || (rmwForm i).isSome ||
    (indexStepForm i).isSome || i == .pla || i == .plp || i == .rti

/-- The flags an instruction writes: the table of 10_state.md R12. -/
def writesFlag (i : Instr) (f : FlagName) : Bool :=
  match f with
  | .n | .z => writesNZ i
  | .c => (adcForm i).isSome || (sbcForm i).isSome || (compareForm i).isSome ||
      (rmwAccForm i).isSome || ((rmwForm i).any fun r => r.1 != .inc && r.1 != .dec) ||
      i == .clc || i == .sec || i == .plp || i == .rti
  | .v => (adcForm i).isSome || (sbcForm i).isSome || (bitForm i).isSome || i == .clv ||
      i == .plp || i == .rti
  | .i => i == .sei || i == .cli || i == .brk || i == .plp || i == .rti
  | .d => i == .sed || i == .cld || i == .plp || i == .rti
  | .b => false

/-- The mode of the operand an instruction stores to: the stores and the read-modify-write forms. -/
def storedMode (i : Instr) : Option Mode := ((storeForm i).map (·.2)) <|> ((rmwForm i).map (·.2))

/-- The addresses an instruction stores a byte to, computed with the machine's own resolver and
stack address. -/
def storedAddrs (i : Instr) (s : State) : List Addr :=
  match storedMode i with
  | some m => [(resolve .writing m s).1]
  | none => (List.range (pushes i)).map fun k => stackAddr (s.sp + BitVec.ofNat 8 k)

/-- With STACK_CHECK = on, S would wrap (44_jsr_stack.md R94, log 8). -/
def StackRefused (i : Instr) (s : State) : Prop :=
  s.cfg.stackCheck = .on ∧ (256 ≤ s.sp.toNat + pushes i ∨ s.sp.toNat < pulls i)

/-- With DECIMAL_POLICY = refuse, an ADC or SBC with D = 1 (46_ext_arith_logic.md R109, log 9). -/
def DecimalRefused (i : Instr) (s : State) : Prop :=
  s.cfg.decimalPolicy = .refuse ∧ s.p.d = true ∧ ((adcForm i).isSome ∨ (sbcForm i).isSome)

end Sys2Proof.Safety
end

