-- ==== Sys2Proof/Certificates/Slice0/Obligations.lean ====
section
/-! DEFINITION. The statements for the provers. Each docstring names the rule or section of the spec it formalises, and what in it is the model's own choice. The right sides are written from the spec's tables through Sys2Proof/Safety.lean, on numbers where the machine computes on bits. A meaning starts after the opcode fetch: PC is the opcode address plus 1 and 1 cycle of the slot is charged already (43_load_base.md, opening). -/

open Sys2Proof Sys2Proof.Machine Sys2Proof.Safety

/-! ## Reset, the host, and the step -/

/-- 10_state.md R21: after Reset, from any state and in the state the model starts from, PC = 0xFFFC, S
designates 0x0100, A, X, Y and the seven flags are 0, every memory cell is 0, RUN is Idle, DIAG is
empty; CYC is not set by Reset. -/
def Obligations.ResetStateHasSpecifiedValues : Prop :=
  ∀ s t : State, t = State.reset ∨ t = hostReset s →
    t.pc = 0xFFFC#16 ∧ t.sp = 0x00#8 ∧ (stackAddr t.sp).toNat = 0x0100 ∧
    t.a = 0#8 ∧ t.x = 0#8 ∧ t.y = 0#8 ∧
    (∀ f : FlagName, getFlag t.p f = false) ∧ (∀ addr : Nat, t.mem.read addr = 0#8) ∧
    t.run = .idle ∧ t.diag = [] ∧ (t = hostReset s → t.cyc = s.cyc)

/-- 70_reset_and_hazards.md R168: the host's Reset from any state outside Execute sets every register,
flag and memory cell, RUN and DIAG, and does so alike in both values of RESET_PC_MODE; it charges
nothing and is idempotent. Model's own: the host's operation is the head of `script` (log 3), and CYC
and the last budget keep their values (log 5). -/
def Obligations.HostResetFromAnyState : Prop :=
  ∀ (s : State) (rest : List HostOp), OutsideExecute s → s.script = .reset :: rest →
    (∃ t, step s = .next t ∧ t.pc = 0xFFFC#16 ∧ t.sp = 0#8 ∧ t.a = 0#8 ∧ t.x = 0#8 ∧ t.y = 0#8 ∧
      (∀ f : FlagName, getFlag t.p f = false) ∧ (∀ addr : Nat, t.mem.read addr = 0#8) ∧
      t.run = .idle ∧ t.diag = [] ∧ t.cyc = s.cyc ∧ t.budget = s.budget ∧ t.cfg = s.cfg ∧
      t.script = rest) ∧
    hostReset (hostReset s) = hostReset s

/-- 42_dispatch_loop.md R73, R74, R82, R83 and 70_reset_and_hazards.md R169: Execute(budget) from Idle
or Halted sets CYC to the budget and continues from the PC as it stands; with RESET_PC_MODE = vector
and RUN = Idle it first loads PC from the word at 0xFFFC, charging nothing; with a budget that is not
positive no slot runs and RUN becomes Halted. Model's own: `script` (log 3); that CYC holds the budget
then too (log 18); and that the load of PC in vector mode happens for such a budget as well (log 11):
R169 places it before the budget test, R82 says that nothing but RUN changes. -/
def Obligations.ExecuteBegins : Prop :=
  ∀ (s : State) (budget : Int) (rest : List HostOp), OutsideExecute s →
    s.script = .execute budget :: rest →
    step s = .next { s with
      pc := if s.cfg.resetPcMode = .vector ∧ s.run = .idle
        then BitVec.ofNat 16 (wordAt s 0xFFFC 0xFFFD) else s.pc
      cyc := budget, budget := budget, script := rest
      run := if 0 < budget then .fetching else .halted }

/-- 20_memory.md R41: outside Execute the host writes one memory byte, with no cycle charged; that
cell reads the value afterwards and every other cell as before. Model's own: `script` (log 3). The
premise on memory is part of Sys2Proof.Safety.Inv, which every step keeps. -/
def Obligations.PokeWritesOneCell : Prop :=
  ∀ (s : State) (addr : Addr) (v : Byte) (rest : List HostOp), OutsideExecute s →
    s.script = .poke addr v :: rest → s.mem.wf = true →
    ∃ t, step s = .next t ∧ memRead t addr = v ∧
      (∀ other : Addr, other ≠ addr → memRead t other = memRead s other) ∧
      t = { s with mem := t.mem, script := rest }

/-- 60_exceptions.md R167: outside Execute all state is retained unchanged until the host acts; and
inside Execute the host's pending operations are not looked at (42_dispatch_loop.md R80): another
`script` gives the same step. -/
def Obligations.HostActsOnlyOutsideExecute : Prop :=
  (∀ s : State, OutsideExecute s → s.script = [] → step s = .next s) ∧
    ∀ (s t : State) (ops : List HostOp), InsideExecute s → step s = .next t →
      t.script = s.script ∧ step { s with script := ops } = .next { t with script := ops }

/-- 42_dispatch_loop.md R78: Execute ends when, at an instruction boundary, CYC <= 0, and nothing but
RUN changes. -/
def Obligations.BudgetExhaustionEndsExecute : Prop :=
  ∀ s : State, InsideExecute s → s.cyc ≤ 0 → step s = .next { s with run := .halted }

/-- 42_dispatch_loop.md R74: with budget left, when the bytes at PC decode under the machine's TABLE to
`i`, a step fetches the opcode byte (PC + 1, one cycle), runs the meaning of `i`, and goes back to
Fetching unless the slot ended Execute. The three bytes are at consecutive addresses modulo 65536. -/
def Obligations.StepRunsDecodedInstruction : Prop :=
  ∀ (s : State) (i : Instr) (rest : List Byte), InsideExecute s → 0 < s.cyc →
    decode s.cfg.table [memRead s s.pc, memRead s (s.pc + 1), memRead s (s.pc + 2)] = .ok (i, rest) →
    let started := { s with pc := s.pc + 1, cyc := s.cyc - 1, run := phaseOf i }
    (∀ t, exec i started = .next t →
      step s = .next (if t.run = .halted then t else { t with run := .fetching })) ∧
    (∀ r, exec i started = .refused r → step s = .refused r)

/-- 42_dispatch_loop.md R77: an opcode byte without an entry costs one cycle, advances PC by 1, is
appended to DIAG, and changes nothing else; the loop goes on, and with UNKNOWN_POLICY = fatal Execute
ends. -/
def Obligations.UnknownOpcodeSlot : Prop :=
  ∀ s : State, InsideExecute s → 0 < s.cyc → NoEntry s.cfg.table (memRead s s.pc) →
    step s = .next { s with
      pc := s.pc + 1, cyc := s.cyc - 1, diag := s.diag ++ [memRead s s.pc]
      run := if s.cfg.unknownPolicy = .fatal then .halted else .fetching }

/-- 42_dispatch_loop.md R77, at the meaning: the diagnostic and nothing else, with both policies. -/
def Obligations.UnknownOpcodeMeaning : Prop :=
  ∀ (op : Byte) (s : State), exec (.unknown op) s = .next { s with
    diag := s.diag ++ [op], run := if s.cfg.unknownPolicy = .fatal then .halted else s.run }

/-- 70_reset_and_hazards.md R174: Execute(1) runs exactly one slot: the step that follows a slot begun
with CYC = 1 ends Execute (with UNKNOWN_POLICY = fatal the slot itself may). -/
def Obligations.BudgetOfOneRunsOneSlot : Prop :=
  ∀ s t : State, InsideExecute s → s.cyc = 1 → step s = .next t →
    t.run = .halted ∨ (t.run = .fetching ∧ step t = .next { t with run := .halted })

/-! ## Encoding -/

/-- 30_encoding.md R42, R44, R46: decoding the bytes of an instruction that exists under TABLE gives it
back, with every operand, whatever follows. -/
def Obligations.EncodedInstructionDecodesBack : Prop :=
  ∀ (t : Table) (i : Instr) (rest : List Byte), i.wellFormed t = true →
    decode t (encode i ++ rest) = .ok (i, rest)

/-- The other direction: what the decoder reads exists under TABLE and is encoded by exactly the bytes
it was read from, so each byte string has one meaning. -/
def Obligations.DecodedInstructionEncodesBack : Prop :=
  ∀ (t : Table) (bytes rest : List Byte) (i : Instr), decode t bytes = .ok (i, rest) →
    i.wellFormed t = true ∧ bytes = encode i ++ rest

/-- 30_encoding.md R45, R46, R47: under BASE the entries are 0xA9, 0xA5, 0xB5, 0x20; under EXT every
byte has one but the 105 that R47 lists; a byte without an entry is unknown whatever follows it. -/
def Obligations.OpcodesWithoutEntry : Prop :=
  (∀ (t : Table) (op b1 b2 : Byte), decodeBytes t op b1 b2 = .unknown op ↔ NoEntry t op) ∧
    undocumentedOpcodes.length = 105 ∧ undocumentedOpcodes.Nodup ∧
    ∀ (op b1 b2 : Byte) (i : Instr), decodeBytes .base op b1 b2 = i → (∀ b, i ≠ .unknown b) →
      decodeBytes .ext op b1 b2 = i

/-- Words written out from 30_encoding.md R46 and R48 decode to the instructions they stand for: one or
more of each family. -/
def Obligations.SampleWordsDecode : Prop :=
  decodeTableWord 16 0x05A9 = some (.ldaImm 0x05#8) ∧
    decodeTableWord 24 0xAA4220 = some (.jsr 0xAA42#16) ∧
    decodeTableWord 24 0x1234BD = some (.ldaAbsX 0x1234#16) ∧
    decodeTableWord 16 0x4091 = some (.staIndY 0x40#8) ∧
    decodeTableWord 8 0xAA = some .tax ∧
    decodeTableWord 16 0x40E1 = some (.sbcIndX 0x40#8) ∧
    decodeTableWord 24 0x12007E = some (.rorAbsX 0x1200#16) ∧
    decodeTableWord 24 0x12FF6C = some (.jmpInd 0x12FF#16) ∧
    decodeTableWord 16 0xFDD0 = some (.bne 0xFD#8) ∧
    decodeTableWord 8 0x28 = some .plp ∧
    decodeTableWord 8 0x02 = some (.unknown 0x02#8)

/-- 30_encoding.md R43, R44 with 40_fetch_addressing.md R50, R51: the operand the decoder found is what
the PC-driven fetches return: after the opcode byte, FetchByte returns the operand byte of a two-byte
instruction and FetchWord the operand word of a three-byte one. This is what allows operands to be
decoded before the meaning runs (log 7). -/
def Obligations.FetchReturnsDecodedOperand : Prop :=
  ∀ s : State, ∃ operands : List Byte,
    encode (instrAt s) = (fetchByte s).1 :: operands ∧
      (∀ d, operands = [d] → (fetchByte (fetchByte s).2).1 = d) ∧
      (∀ lo hi, operands = [lo, hi] →
        (fetchWord (fetchByte s).2).1 = joinBytes hi lo ∧
          (joinBytes hi lo).toNat = hi.toNat * 256 + lo.toNat) ∧
      operands.length ≤ 2

/-! ## Invariants and whole-machine rules -/

/-- The invariant holds right after reset, and after any Reset by the host from a state that meets it;
the BASE invariant holds after any Reset (10_state.md R21). -/
def Obligations.InvariantHoldsAfterReset : Prop :=
  Inv State.reset ∧ BaseQuiet State.reset ∧ (∀ s : State, BaseQuiet (hostReset s)) ∧
    ∀ s : State, Inv s → Inv (hostReset s)

/-- Every step keeps the invariant: memory in canonical form (log 12), the loop at a boundary
(10_state.md R18), and the remaining budget in the range of 10_state.md R17 and 42_dispatch_loop.md
R79, R81, R82. -/
def Obligations.EveryStepKeepsInvariant : Prop :=
  ∀ s t : State, Inv s → step s = .next t → Inv t

/-- 10_state.md R7, R12: with TABLE = BASE, X, Y and the flags C, V, I, D, B keep their reset value 0:
every step, of the Core and of the host, keeps them 0. -/
def Obligations.EveryStepKeepsBaseRegistersZero : Prop :=
  ∀ s t : State, BaseQuiet s → step s = .next t → BaseQuiet t

/-- 10_state.md R6: the dispatch table and the parameters do not change while the machine runs. -/
def Obligations.ParametersNeverChange : Prop :=
  ∀ s t : State, step s = .next t → t.cfg = s.cfg

/-- 10_state.md R12, R13: P.B is written by no instruction, and no step sets it. -/
def Obligations.BreakFlagIsNeverSet : Prop :=
  (∀ (i : Instr) (s t : State), exec i s = .next t → t.p.b = s.p.b) ∧
    ∀ s t : State, step s = .next t → s.p.b = false → t.p.b = false

/-- 10_state.md R19 and 60_exceptions.md R155: DIAG is append-only; an instruction of the table appends
nothing and an unknown opcode its own byte. -/
def Obligations.DiagnosticIsAppendOnly : Prop :=
  ∀ (i : Instr) (s t : State), exec i s = .next t →
    t.diag = s.diag ++ (match i with | .unknown op => [op] | _ => [])

/-- 10_state.md R19: DIAG is write-only for the Core: nothing a step does depends on it. -/
def Obligations.DiagnosticInfluencesNothing : Prop :=
  ∀ (s t : State) (d : List Byte), step s = .next t →
    ∃ d', step { s with diag := d } = .next { t with diag := d' }

/-- 10_state.md R17, 60_exceptions.md R163: no instruction reads CYC: an instruction begun with `k`
cycles more ends in the same state with `k` cycles more, and is refused alike. -/
def Obligations.CycleBudgetIsInvisible : Prop :=
  ∀ (i : Instr) (s : State) (k : Int),
    (∀ t, exec i s = .next t →
      exec i { s with cyc := s.cyc + k } = .next { t with cyc := t.cyc + k }) ∧
    (∀ r, exec i s = .refused r → exec i { s with cyc := s.cyc + k } = .refused r)


/-- 42_dispatch_loop.md R81: what Execute returns, `budget - CYC`, is the sum of the costs of the slots
run: 0 when Execute begins (log 18), more by the slot's cost after a slot, unchanged by the end of
Execute. -/
def Obligations.ReturnedCyclesAreTheSlotCosts : Prop :=
  (∀ (s : State) (budget : Int), (beginExecute s budget).returned = 0) ∧
  (∀ s : State, (endExecute s).returned = s.returned) ∧
  ∀ s t : State, InsideExecute s → 0 < s.cyc → step s = .next t →
    t.budget = s.budget ∧
      t.returned = s.returned +
        (baseCycles (instrAt s) + extraCycles (enterSlot s) (instrAt s) : Nat)

/-- 70_reset_and_hazards.md R181, 42_dispatch_loop.md R84: every slot charges exactly the cycles of the
opcode map, with +p on an indexed read that crosses a page and +b on a taken branch, and 1 for an
unknown opcode. -/
def Obligations.SlotChargesTableCycles : Prop :=
  ∀ (i : Instr) (s t : State), exec i s = .next t →
    t.cyc = s.cyc + 1 - (baseCycles i + extraCycles s i : Nat)

/-- 60_exceptions.md R154: no instruction can fault on its operands: every instruction completes,
except under the two parameter values that are not the defaults and only where the spec then gives no
effect. With the default parameters it always completes. -/
def Obligations.EveryInstructionCompletes : Prop :=
  (∀ (i : Instr) (s : State), ¬StackRefused i s → ¬DecimalRefused i s → ∃ t, exec i s = .next t) ∧
    ∀ (i : Instr) (s : State), PlainConfig s.cfg → ∃ t, exec i s = .next t

/-- With the default STACK_CHECK and DECIMAL_POLICY every step of the machine is safe: it answers a
next state (60_exceptions.md R154; 42_dispatch_loop.md R81: "always returns control to the caller"). -/
def Obligations.EveryStepIsSafe : Prop := ∀ s : State, PlainConfig s.cfg → Safe s

/-- The refusals (log 8, log 9): with STACK_CHECK = on a wrapping push or pull is refused
(93_implementation_defined.md G8), and with DECIMAL_POLICY = refuse ADC and SBC with D = 1 have no
meaning (46_ext_arith_logic.md R109); nothing else is refused. That the wrapping step is refused as a
whole is the model's choice (log 8). -/
def Obligations.RefusalsAreTheTwoParameters : Prop :=
  ∀ (i : Instr) (s : State),
    (exec i s = .refused .stackWrap ↔ StackRefused i s) ∧
    (exec i s = .refused .decimalMode ↔ DecimalRefused i s) ∧
    (∀ r, exec i s = .refused r → r = .stackWrap ∨ r = .decimalMode)

/-! ## Frames: what an instruction leaves unchanged -/

/-- For every instruction: A, X, Y and S are unchanged unless it is one that writes that register
(Sys2Proof.Safety.writesReg), and so are the budget, the parameters, the host's operations and, for an
instruction of the table, RUN and DIAG. -/
def Obligations.RegisterFrame : Prop :=
  ∀ (i : Instr) (s t : State), exec i s = .next t →
    (∀ r : Reg, writesReg i r = false → getReg t r = getReg s r) ∧
    t.budget = s.budget ∧ t.cfg = s.cfg ∧ t.script = s.script ∧
    ((∀ op, i ≠ .unknown op) → t.run = s.run ∧ t.diag = s.diag)

/-- 41_flag_rules.md R71 with the table of 10_state.md R12: an instruction writes only the flags its
rule lists; JSR and an unknown opcode change none. -/
def Obligations.FlagFrame : Prop :=
  ∀ (i : Instr) (s t : State), exec i s = .next t →
    (∀ f : FlagName, writesFlag i f = false → getFlag t.p f = getFlag s.p f) ∧
    ((∃ w, i = .jsr w) ∨ (∃ op, i = .unknown op) → t.p = s.p)

/-- Every byte of memory is unchanged but those the instruction stores to; the addresses stored to are
computed with the machine's own resolver and stack address (Sys2Proof.Safety.storedAddrs). -/
def Obligations.MemoryFrame : Prop :=
  ∀ (i : Instr) (s t : State), exec i s = .next t →
    ∀ addr : Addr, addr ∉ storedAddrs i s → memRead t addr = memRead s addr

/-- 44_jsr_stack.md R89: every stack-touching instruction pushes inside page 1 and moves S by the exact
byte count modulo 256, upward for a push and downward for a pull. -/
def Obligations.StackStaysInPageOne : Prop :=
  ∀ (i : Instr) (s t : State), exec i s = .next t →
    (0 < pushes i → ∀ addr ∈ storedAddrs i s, highByte addr = 0x01#8) ∧
    (0 < pushes i ∨ 0 < pulls i →
      ((t.sp.toNat : Int) = (s.sp.toNat + pushes i - pulls i) % 256))

/-! ## Addressing, flags and the shared operations -/

/-- 40_fetch_addressing.md R66: the effective address of every mode, as the summary table gives it,
for reading and for writing forms. -/
def Obligations.EffectiveAddressOfEveryMode : Prop :=
  ∀ (acc : Access) (m : Mode) (s : State), (resolve acc m s).1.toNat = effectiveAddress s m

/-- 45_ext_load_store_transfer.md R96: an operand read gives the value at the effective address, passes
the operand bytes and charges the cycles of a load; the address of a store is the effective address and
charges the indexing cycle whether or not a page is crossed; nothing else changes. -/
def Obligations.OperandReadAndStoreAddress : Prop :=
  (∀ (src : Source) (s : State), operand src s = (operandValue s src, afterRead s src)) ∧
    ∀ (m : Mode) (s : State), (resolve .writing m s).1.toNat = effectiveAddress s m ∧
      (resolve .writing m s).2 =
        { s with pc := s.pc + BitVec.ofNat 16 (modeBytes m), cyc := s.cyc + 2 - storeCycles m }

/-- 41_flag_rules.md R67: Z is 1 exactly for 0, N is bit 7, no other flag is written, and
(Z, N) = (1, 1) cannot result. -/
def Obligations.ZeroNegativeRule : Prop :=
  ∀ (p : Flags) (v : Byte),
    p.setNZ v = { p with z := decide (v.toNat = 0), n := decide (128 ≤ v.toNat) } ∧
      ¬((p.setNZ v).z = true ∧ (p.setNZ v).n = true)

/-- 10_state.md R13: the packed flag byte is NV1BDIZC from bit 7 to bit 0; unpacking writes N, V, D, I,
Z, C from their bits, ignores bits 5 and 4 and does not write P.B. -/
def Obligations.PackedFlagByte : Prop :=
  (∀ p : Flags, p.pack.toNat = flagNumber p p.b) ∧
    (∀ (p : Flags) (byte : Byte), p.unpack byte = pulledFlags p byte)

/-- 20_memory.md R28, R29, R31: a word is written low byte at `addr`, high byte at `addr + 1` modulo
65536, the word read back is the word written, and no other byte changes. The premise is part of
Sys2Proof.Safety.Inv. -/
def Obligations.WordAccessIsLittleEndian : Prop :=
  ∀ (s : State) (addr v : Addr), s.mem.wf = true →
    memReadWord (memWriteWord s addr v) addr = v ∧
      (memRead (memWriteWord s addr v) addr).toNat = v.toNat % 256 ∧
      (memRead (memWriteWord s addr v) (addr + 1)).toNat = v.toNat / 256 ∧
      (∀ other : Addr, other ≠ addr → other ≠ addr + 1 →
        memRead (memWriteWord s addr v) other = memRead s other)

/-- 44_jsr_stack.md R91, R93: a pull after a push returns the value and restores S, for a byte and for
a word, at every S; the pulled cells keep their values. The premise is part of Sys2Proof.Safety.Inv. -/
def Obligations.PullInvertsPush : Prop :=
  ∀ s : State, s.mem.wf = true →
    (∀ v : Byte, pullByte (pushByte s v) =
      (v, { pushByte s v with sp := s.sp, cyc := s.cyc - 2 })) ∧
    (∀ w : Addr, pullWord (pushWord s w) =
      (w, { pushWord s w with sp := s.sp, cyc := s.cyc - 4 }))

/-! ## Results, family by family: each is also where its instructions complete, and their frame -/

/-- LDA, LDX, LDY (43_load_base.md R85 to R88, 45_ext_load_store_transfer.md R97 to R99): the register
receives the operand, Z and N describe it, nothing else changes; bytes, cycles and opcodes as listed. -/
def Obligations.LoadResult : Prop :=
  (∀ (i : Instr) (r : Reg) (src : Source) (s : State), loadForm i = some (r, src) →
    exec i s = .next (putReg r (operandValue s src)
      { afterRead s src with p := flagsNZ s.p (operandValue s src) })) ∧
  HasF2 .ldaImm 0xA9 ∧ HasF2 .ldaZp 0xA5 ∧ HasF2 .ldaZpX 0xB5 ∧ HasF3 .ldaAbs 0xAD ∧
  HasF3 .ldaAbsX 0xBD ∧ HasF3 .ldaAbsY 0xB9 ∧ HasF2 .ldaIndX 0xA1 ∧ HasF2 .ldaIndY 0xB1 ∧
  HasF2 .ldxImm 0xA2 ∧ HasF2 .ldxZp 0xA6 ∧ HasF2 .ldxZpY 0xB6 ∧ HasF3 .ldxAbs 0xAE ∧
  HasF3 .ldxAbsY 0xBE ∧ HasF2 .ldyImm 0xA0 ∧ HasF2 .ldyZp 0xA4 ∧ HasF2 .ldyZpX 0xB4 ∧
  HasF3 .ldyAbs 0xAC ∧ HasF3 .ldyAbsX 0xBC

/-- STA, STX, STY (45_ext_load_store_transfer.md R100 to R102): the register is stored at the effective
address; no register but PC and no flag is written; the fixed cycles; opcodes as listed. -/
def Obligations.StoreResult : Prop :=
  (∀ (i : Instr) (r : Reg) (m : Mode) (s : State), storeForm i = some (r, m) →
    exec i s = .next { s with
      mem := s.mem.write (effectiveAddress s m) (getReg s r)
      pc := s.pc + BitVec.ofNat 16 (modeBytes m), cyc := s.cyc + 1 - storeCycles m }) ∧
  HasF2 .staZp 0x85 ∧ HasF2 .staZpX 0x95 ∧ HasF3 .staAbs 0x8D ∧ HasF3 .staAbsX 0x9D ∧
  HasF3 .staAbsY 0x99 ∧ HasF2 .staIndX 0x81 ∧ HasF2 .staIndY 0x91 ∧
  HasF2 .stxZp 0x86 ∧ HasF2 .stxZpY 0x96 ∧ HasF3 .stxAbs 0x8E ∧
  HasF2 .styZp 0x84 ∧ HasF2 .styZpX 0x94 ∧ HasF3 .styAbs 0x8C

/-- TAX, TAY, TXA, TYA, TSX (45_ext_load_store_transfer.md R103 to R107) and TXS (R108): opcodes, value,
Z and N, two cycles in all; TXS sets no flag. -/
def Obligations.TransferResult : Prop :=
  (∀ (i : Instr) (dst src : Reg) (s : State), transferForm i = some (dst, src) →
    exec i s = .next (putReg dst (getReg s src)
      { s with p := flagsNZ s.p (getReg s src), cyc := s.cyc - 1 })) ∧
  (∀ s : State, exec .txs s = .next { s with sp := s.x, cyc := s.cyc - 1 }) ∧
  HasF1 .tax 0xAA ∧ HasF1 .tay 0xA8 ∧ HasF1 .txa 0x8A ∧ HasF1 .tya 0x98 ∧ HasF1 .tsx 0xBA ∧
  HasF1 .txs 0x9A

/-- ADC (46_ext_arith_logic.md R109): A + m + C modulo 256; C is the unsigned carry; V is 1 exactly when
the signed sum does not fit -128..127 (41_flag_rules.md R70); binary whatever D holds, and with
DECIMAL_POLICY = refuse no meaning when D = 1; opcodes as listed. -/
def Obligations.AddWithCarryResult : Prop :=
  (∀ (i : Instr) (src : Source) (s : State), adcForm i = some src →
    let m := operandValue s src
    let total := s.a.toNat + m.toNat + s.p.c.toNat
    let signed := s.a.toInt + m.toInt + s.p.c.toNat
    exec i s = if s.cfg.decimalPolicy = .refuse ∧ s.p.d = true then .refused .decimalMode
      else .next { afterRead s src with
        a := BitVec.ofNat 8 (total % 256)
        p := { s.p with
          n := decide (128 ≤ total % 256), z := decide (total % 256 = 0), c := decide (255 < total)
          v := decide (signed < -128 ∨ 127 < signed) } }) ∧
  HasF2 .adcImm 0x69 ∧ HasF2 .adcZp 0x65 ∧ HasF2 .adcZpX 0x75 ∧ HasF3 .adcAbs 0x6D ∧
  HasF3 .adcAbsX 0x7D ∧ HasF3 .adcAbsY 0x79 ∧ HasF2 .adcIndX 0x61 ∧ HasF2 .adcIndY 0x71

/-- SBC (46_ext_arith_logic.md R110): A - m - (1 - C) modulo 256; C = 1 means no borrow; V is 1 exactly
when the signed difference does not fit -128..127; binary whatever D holds; opcodes as listed. That SBC
is refused with DECIMAL_POLICY = refuse and D = 1 is the model's reading (log 9) of R110's "D ignored as
in rule R109", of R109, which names ADC, and of 93_implementation_defined.md G14, which names both. -/
def Obligations.SubtractWithBorrowResult : Prop :=
  (∀ (i : Instr) (src : Source) (s : State), sbcForm i = some src →
    let m := operandValue s src
    let borrow : Int := 1 - s.p.c.toNat
    let difference : Int := s.a.toNat - m.toNat - borrow
    let signed : Int := s.a.toInt - m.toInt - borrow
    exec i s = if s.cfg.decimalPolicy = .refuse ∧ s.p.d = true then .refused .decimalMode
      else .next { afterRead s src with
        a := BitVec.ofInt 8 difference
        p := { s.p with
          n := decide (128 ≤ difference % 256), z := decide (difference % 256 = 0)
          c := decide ((m.toNat : Int) + borrow ≤ s.a.toNat)
          v := decide (signed < -128 ∨ 127 < signed) } }) ∧
  HasF2 .sbcImm 0xE9 ∧ HasF2 .sbcZp 0xE5 ∧ HasF2 .sbcZpX 0xF5 ∧ HasF3 .sbcAbs 0xED ∧
  HasF3 .sbcAbsX 0xFD ∧ HasF3 .sbcAbsY 0xF9 ∧ HasF2 .sbcIndX 0xE1 ∧ HasF2 .sbcIndY 0xF1

/-- AND, ORA, EOR (46_ext_arith_logic.md R111 to R113): bit by bit on A and the operand; Z and N
describe the new A; C, V and the rest unchanged; opcodes as listed. -/
def Obligations.LogicResult : Prop :=
  (∀ (i : Instr) (op : LogicOp) (src : Source) (s : State), logicForm i = some (op, src) →
    ∃ r : Byte,
      (∀ k < 8, r.getLsbD k = logicBit op (s.a.getLsbD k) ((operandValue s src).getLsbD k)) ∧
      exec i s = .next { afterRead s src with a := r, p := flagsNZ s.p r }) ∧
  HasF2 .andImm 0x29 ∧ HasF2 .andZp 0x25 ∧ HasF2 .andZpX 0x35 ∧ HasF3 .andAbs 0x2D ∧
  HasF3 .andAbsX 0x3D ∧ HasF3 .andAbsY 0x39 ∧ HasF2 .andIndX 0x21 ∧ HasF2 .andIndY 0x31 ∧
  HasF2 .oraImm 0x09 ∧ HasF2 .oraZp 0x05 ∧ HasF2 .oraZpX 0x15 ∧ HasF3 .oraAbs 0x0D ∧
  HasF3 .oraAbsX 0x1D ∧ HasF3 .oraAbsY 0x19 ∧ HasF2 .oraIndX 0x01 ∧ HasF2 .oraIndY 0x11 ∧
  HasF2 .eorImm 0x49 ∧ HasF2 .eorZp 0x45 ∧ HasF2 .eorZpX 0x55 ∧ HasF3 .eorAbs 0x4D ∧
  HasF3 .eorAbsX 0x5D ∧ HasF3 .eorAbsY 0x59 ∧ HasF2 .eorIndX 0x41 ∧ HasF2 .eorIndY 0x51

/-- CMP, CPX, CPY (46_ext_arith_logic.md R114 to R116): C is the unsigned comparison, Z equality, N bit
7 of the difference modulo 256; V unchanged, no register written; opcodes as listed. -/
def Obligations.CompareResult : Prop :=
  (∀ (i : Instr) (r : Reg) (src : Source) (s : State), compareForm i = some (r, src) →
    let m := operandValue s src
    exec i s = .next { afterRead s src with
      p := { s.p with
        c := decide (m.toNat ≤ (getReg s r).toNat), z := decide (getReg s r = m)
        n := decide (128 ≤ ((getReg s r).toNat + 256 - m.toNat) % 256) } }) ∧
  HasF2 .cmpImm 0xC9 ∧ HasF2 .cmpZp 0xC5 ∧ HasF2 .cmpZpX 0xD5 ∧ HasF3 .cmpAbs 0xCD ∧
  HasF3 .cmpAbsX 0xDD ∧ HasF3 .cmpAbsY 0xD9 ∧ HasF2 .cmpIndX 0xC1 ∧ HasF2 .cmpIndY 0xD1 ∧
  HasF2 .cpxImm 0xE0 ∧ HasF2 .cpxZp 0xE4 ∧ HasF3 .cpxAbs 0xEC ∧
  HasF2 .cpyImm 0xC0 ∧ HasF2 .cpyZp 0xC4 ∧ HasF3 .cpyAbs 0xCC

/-- BIT (46_ext_arith_logic.md R117): Z from A and m, N and V are bits 7 and 6 of the operand; opcodes
24 and 2C. -/
def Obligations.BitTestResult : Prop :=
  (∀ (i : Instr) (src : Source) (s : State), bitForm i = some src →
    let m := operandValue s src
    exec i s = .next { afterRead s src with
      p := { s.p with
        z := decide (∀ k : Fin 8, ¬(s.a.getLsbD k = true ∧ m.getLsbD k = true))
        n := decide (128 ≤ m.toNat), v := decide (64 ≤ m.toNat % 128) } }) ∧
  HasF2 .bitZp 0x24 ∧ HasF3 .bitAbs 0x2C

/-- ASL, LSR, ROL, ROR, INC, DEC (47_ext_shift_incdec.md R118 to R124), on A and on memory: the value the
rules compute, C the bit shifted out or unchanged, Z and N of the value written; the memory forms write
once, at the effective address, leave A, X, Y alone and cost two cycles more than a store; opcodes as
listed. -/
def Obligations.ReadModifyWriteResult : Prop :=
  (∀ (i : Instr) (op : RmwOp) (s : State), rmwAccForm i = some op →
    let w := rmwValue op s.a s.p.c
    exec i s = .next { s with
      a := BitVec.ofNat 8 w.1
      p := { s.p with z := decide (w.1 = 0), n := decide (128 ≤ w.1), c := w.2 }
      cyc := s.cyc - 1 }) ∧
  (∀ (i : Instr) (op : RmwOp) (m : Mode) (s : State), rmwForm i = some (op, m) →
    let w := rmwValue op (s.mem.read (effectiveAddress s m)) s.p.c
    exec i s = .next { s with
      mem := s.mem.write (effectiveAddress s m) (BitVec.ofNat 8 w.1)
      p := { s.p with z := decide (w.1 = 0), n := decide (128 ≤ w.1), c := w.2 }
      pc := s.pc + BitVec.ofNat 16 (modeBytes m), cyc := s.cyc - 1 - storeCycles m }) ∧
  HasF1 .aslAcc 0x0A ∧ HasF2 .aslZp 0x06 ∧ HasF2 .aslZpX 0x16 ∧ HasF3 .aslAbs 0x0E ∧
  HasF3 .aslAbsX 0x1E ∧ HasF1 .lsrAcc 0x4A ∧ HasF2 .lsrZp 0x46 ∧ HasF2 .lsrZpX 0x56 ∧
  HasF3 .lsrAbs 0x4E ∧ HasF3 .lsrAbsX 0x5E ∧ HasF1 .rolAcc 0x2A ∧ HasF2 .rolZp 0x26 ∧
  HasF2 .rolZpX 0x36 ∧ HasF3 .rolAbs 0x2E ∧ HasF3 .rolAbsX 0x3E ∧ HasF1 .rorAcc 0x6A ∧
  HasF2 .rorZp 0x66 ∧ HasF2 .rorZpX 0x76 ∧ HasF3 .rorAbs 0x6E ∧ HasF3 .rorAbsX 0x7E ∧
  HasF2 .incZp 0xE6 ∧ HasF2 .incZpX 0xF6 ∧ HasF3 .incAbs 0xEE ∧ HasF3 .incAbsX 0xFE ∧
  HasF2 .decZp 0xC6 ∧ HasF2 .decZpX 0xD6 ∧ HasF3 .decAbs 0xCE ∧ HasF3 .decAbsX 0xDE

/-- INX, INY, DEX, DEY (47_ext_shift_incdec.md R125 to R128): one more or less modulo 256, Z and N of the
new value, C and V unchanged, two cycles in all; opcodes E8, C8, CA, 88. -/
def Obligations.IndexStepResult : Prop :=
  (∀ (i : Instr) (r : Reg) (k : Nat) (s : State), indexStepForm i = some (r, k) →
    let n := ((getReg s r).toNat + k) % 256
    exec i s = .next (putReg r (BitVec.ofNat 8 n)
      { s with p := { s.p with z := decide (n = 0), n := decide (128 ≤ n) }, cyc := s.cyc - 1 })) ∧
  HasF1 .inx 0xE8 ∧ HasF1 .iny 0xC8 ∧ HasF1 .dex 0xCA ∧ HasF1 .dey 0x88

/-- JMP (48_ext_control.md R129, 40_fetch_addressing.md R63): absolute takes the operand word; indirect
takes the word at it, its high byte from the same page; no flag, no stack; 3 and 5 cycles in all;
opcodes 4C and 6C. -/
def Obligations.JumpResult : Prop :=
  (∀ (w : Addr) (s : State),
    exec (.jmpAbs w) s = .next { s with pc := w, cyc := s.cyc - 2 } ∧
    exec (.jmpInd w) s = .next { s with
      pc := BitVec.ofNat 16 (wordAt s w.toNat (w.toNat / 256 * 256 + (w.toNat + 1) % 256))
      cyc := s.cyc - 4 }) ∧
  HasF3 .jmpAbs 0x4C ∧ HasF3 .jmpInd 0x6C

/-- JSR (44_jsr_stack.md R95): pushes the address of its last byte, low byte first, both bytes in page
1, S + 2, PC to the target, 6 cycles in all, no flag and no other register; opcode 20. -/
def Obligations.JumpSubroutineResult : Prop :=
  (∀ (w : Addr) (s : State), ¬StackRefused (.jsr w) s →
    exec (.jsr w) s = .next { s with
      mem := pushed s.mem s.sp.toNat (wordBytes ((s.pc.toNat + 1) % 65536))
      sp := s.sp + 2, pc := w, cyc := s.cyc - 5 }) ∧
  HasF3 .jsr 0x20

/-- RTS (48_ext_control.md R130): pulls the high byte, then the low byte, adds 1; S - 2; 6 cycles in
all; opcode 60. -/
def Obligations.ReturnFromSubroutineResult : Prop :=
  (∀ s : State, ¬StackRefused .rts s →
    exec .rts s = .next { s with
      pc := BitVec.ofNat 16 ((stackByte s (-1)).toNat * 256 + (stackByte s (-2)).toNat + 1)
      sp := s.sp - 2, cyc := s.cyc - 5 }) ∧
  HasF1 .rts 0x60

/-- BCC to BVS (48_ext_control.md R131 to R139): taken exactly on the named flag value, to the next
instruction's address plus the signed displacement; 2, 3 or 4 cycles in all; opcodes as listed. -/
def Obligations.BranchResult : Prop :=
  (∀ (i : Instr) (f : FlagName) (value : Bool) (d : Byte) (s : State),
    branchForm i = some (f, value, d) →
    exec i s = .next (if getFlag s.p f = value
      then { s with
        pc := BitVec.ofInt 16 (branchTarget s d)
        cyc := s.cyc - 2 -
          (if branchTarget s d / 256 = ((s.pc.toNat : Int) + 1) % 65536 / 256 then 0 else 1) }
      else { s with pc := s.pc + 1, cyc := s.cyc - 1 })) ∧
  HasF2 .bcc 0x90 ∧ HasF2 .bcs 0xB0 ∧ HasF2 .beq 0xF0 ∧ HasF2 .bne 0xD0 ∧ HasF2 .bmi 0x30 ∧
  HasF2 .bpl 0x10 ∧ HasF2 .bvc 0x50 ∧ HasF2 .bvs 0x70

/-- BRK (48_ext_control.md R140): skips the padding byte, pushes that PC and the flags with bits 5 and 4
set, S + 3, sets I alone, loads PC from 0xFFFE; 7 cycles in all; opcode 00. -/
def Obligations.SoftwareInterruptEntry : Prop :=
  (∀ s : State, ¬StackRefused .brk s →
    exec .brk s = .next { s with
      mem := pushed s.mem s.sp.toNat
        (wordBytes ((s.pc.toNat + 1) % 65536) ++ [BitVec.ofNat 8 (flagNumber s.p true)])
      sp := s.sp + 3, p := { s.p with i := true }
      pc := BitVec.ofNat 16 (wordAt s 0xFFFE 0xFFFF), cyc := s.cyc - 6 }) ∧
  HasF1 .brk 0x00

/-- RTI (48_ext_control.md R141): pulls the flags, then PC, adds nothing; P.B unchanged; S - 3; 6 cycles
in all; opcode 40. -/
def Obligations.ReturnFromInterruptResult : Prop :=
  (∀ s : State, ¬StackRefused .rti s →
    exec .rti s = .next { s with
      p := pulledFlags s.p (stackByte s (-1))
      pc := BitVec.ofNat 16 ((stackByte s (-2)).toNat * 256 + (stackByte s (-3)).toNat)
      sp := s.sp - 3, cyc := s.cyc - 5 }) ∧
  HasF1 .rti 0x40

/-- NOP (48_ext_control.md R142): one cycle more and nothing else; opcode EA. -/
def Obligations.NoOperationResult : Prop :=
  (∀ s : State, exec .nop s = .next { s with cyc := s.cyc - 1 }) ∧ HasF1 .nop 0xEA

/-- PHA and PHP (49_ext_stack_flags.md R143, R145): A, or the flags with bits 5 and 4 set, at 0x0100 + S;
S + 1; 3 cycles in all; no flag; opcodes 48 and 08. -/
def Obligations.PushResult : Prop :=
  (∀ s : State, ¬StackRefused .pha s →
    exec .pha s = .next { s with
      mem := s.mem.write (256 + s.sp.toNat) s.a, sp := s.sp + 1, cyc := s.cyc - 2 }) ∧
  (∀ s : State, ¬StackRefused .php s →
    exec .php s = .next { s with
      mem := s.mem.write (256 + s.sp.toNat) (BitVec.ofNat 8 (flagNumber s.p true))
      sp := s.sp + 1, cyc := s.cyc - 2 }) ∧
  HasF1 .pha 0x48 ∧ HasF1 .php 0x08

/-- PLA and PLP (49_ext_stack_flags.md R144, R146): S - 1, then the byte there into A with Z and N, or
into the flags but P.B; 4 cycles in all; opcodes 68 and 28. -/
def Obligations.PullResult : Prop :=
  (∀ s : State, ¬StackRefused .pla s →
    exec .pla s = .next { s with
      a := stackByte s (-1), p := flagsNZ s.p (stackByte s (-1))
      sp := s.sp - 1, cyc := s.cyc - 3 }) ∧
  (∀ s : State, ¬StackRefused .plp s →
    exec .plp s = .next { s with
      p := pulledFlags s.p (stackByte s (-1)), sp := s.sp - 1, cyc := s.cyc - 3 }) ∧
  HasF1 .pla 0x68 ∧ HasF1 .plp 0x28

/-- CLC, SEC, CLI, SEI, CLD, SED, CLV (49_ext_stack_flags.md R147 to R153): exactly one flag written, two
cycles in all, nothing else; opcodes as listed. -/
def Obligations.FlagInstructionResult : Prop :=
  (∀ (i : Instr) (f : FlagName) (value : Bool) (s : State), flagForm i = some (f, value) →
    exec i s = .next { s with p := putFlag s.p f value, cyc := s.cyc - 1 }) ∧
  HasF1 .clc 0x18 ∧ HasF1 .sec 0x38 ∧ HasF1 .cli 0x58 ∧
  HasF1 .sei 0x78 ∧ HasF1 .cld 0xD8 ∧ HasF1 .sed 0xF8 ∧ HasF1 .clv 0xB8

/-! ## Calls and returns together -/

/-- 44_jsr_stack.md R95 with 48_ext_control.md R130: an RTS right after a JSR goes to the instruction
after the JSR and restores S, at every S and PC; A, X, Y and the flags are as before. The premise on
memory is part of Sys2Proof.Safety.Inv. -/
def Obligations.ReturnUndoesCall : Prop :=
  ∀ (w : Addr) (s t : State), s.mem.wf = true → ¬StackRefused (.jsr w) s →
    exec (.jsr w) s = .next t →
    ∃ u, exec .rts t = .next u ∧ u = { s with pc := s.pc + 2, mem := t.mem, cyc := s.cyc - 10 }

/-- 60_exceptions.md R159: RTI undoes BRK: PC at the opcode address plus 2, the flags (I among them) and S
as before, at every S. The premise on memory is part of Sys2Proof.Safety.Inv. -/
def Obligations.ReturnUndoesSoftwareInterrupt : Prop :=
  ∀ s t : State, s.mem.wf = true → ¬StackRefused .brk s → exec .brk s = .next t →
    ∃ u, exec .rti t = .next u ∧ u = { s with pc := s.pc + 1, mem := t.mem, cyc := s.cyc - 11 }
end

