-- ==== Sys2Proof/Laws/Forms.lean ====
section
/-! SUPPORT. Every instruction belongs to one of the families that Sys2Proof/Safety.lean names; what the families say about the stack. Proofs about all instructions split by these instead of by 152 constructors. -/

namespace Sys2Proof.Laws

open Sys2Proof.Machine Sys2Proof.Safety

/-- The families cover every instruction. -/
theorem form_cases (i : Instr) :
    (∃ r src, loadForm i = some (r, src)) ∨ (∃ r m, storeForm i = some (r, m)) ∨
    (∃ dst src, transferForm i = some (dst, src)) ∨ i = .txs ∨ (∃ src, adcForm i = some src) ∨
    (∃ src, sbcForm i = some src) ∨ (∃ op src, logicForm i = some (op, src)) ∨
    (∃ r src, compareForm i = some (r, src)) ∨ (∃ src, bitForm i = some src) ∨
    (∃ op, rmwAccForm i = some op) ∨ (∃ op m, rmwForm i = some (op, m)) ∨
    (∃ r k, indexStepForm i = some (r, k)) ∨ (∃ f v d, branchForm i = some (f, v, d)) ∨
    (∃ f v, flagForm i = some (f, v)) ∨ (∃ w, i = .jmpAbs w) ∨ (∃ w, i = .jmpInd w) ∨
    (∃ w, i = .jsr w) ∨ i = .rts ∨ i = .brk ∨ i = .rti ∨ i = .nop ∨ i = .pha ∨ i = .php ∨
    i = .pla ∨ i = .plp ∨ ∃ op, i = .unknown op := by
  cases i
  all_goals first
    | exact .inl ⟨_, _, rfl⟩
    | exact .inr (.inl ⟨_, _, rfl⟩)
    | exact .inr (.inr (.inl ⟨_, _, rfl⟩))
    | exact .inr (.inr (.inr (.inl rfl)))
    | exact .inr (.inr (.inr (.inr (.inl ⟨_, rfl⟩))))
    | exact .inr (.inr (.inr (.inr (.inr (.inl ⟨_, rfl⟩)))))
    | exact .inr (.inr (.inr (.inr (.inr (.inr (.inl ⟨_, _, rfl⟩))))))
    | exact .inr (.inr (.inr (.inr (.inr (.inr (.inr (.inl ⟨_, _, rfl⟩)))))))
    | exact .inr (.inr (.inr (.inr (.inr (.inr (.inr (.inr (.inl ⟨_, rfl⟩))))))))
    | exact .inr (.inr (.inr (.inr (.inr (.inr (.inr (.inr (.inr (.inl ⟨_, rfl⟩)))))))))
    | exact .inr (.inr (.inr (.inr (.inr (.inr (.inr (.inr (.inr (.inr (.inl ⟨_, _, rfl⟩))))))))))
    | exact .inr (.inr (.inr (.inr (.inr (.inr (.inr (.inr (.inr (.inr (.inr (.inl ⟨_, _, rfl⟩)))))))))))
    | exact .inr (.inr (.inr (.inr (.inr (.inr (.inr (.inr (.inr (.inr (.inr (.inr (.inl ⟨_, _, _, rfl⟩))))))))))))
    | exact .inr (.inr (.inr (.inr (.inr (.inr (.inr (.inr (.inr (.inr (.inr (.inr (.inr (.inl ⟨_, _, rfl⟩)))))))))))))
    | exact .inr (.inr (.inr (.inr (.inr (.inr (.inr (.inr (.inr (.inr (.inr (.inr (.inr (.inr (.inl ⟨_, rfl⟩))))))))))))))
    | exact .inr (.inr (.inr (.inr (.inr (.inr (.inr (.inr (.inr (.inr (.inr (.inr (.inr (.inr (.inr (.inl ⟨_, rfl⟩)))))))))))))))
    | exact .inr (.inr (.inr (.inr (.inr (.inr (.inr (.inr (.inr (.inr (.inr (.inr (.inr (.inr (.inr (.inr (.inl ⟨_, rfl⟩))))))))))))))))
    | exact .inr (.inr (.inr (.inr (.inr (.inr (.inr (.inr (.inr (.inr (.inr (.inr (.inr (.inr (.inr (.inr (.inr (.inl rfl)))))))))))))))))
    | exact .inr (.inr (.inr (.inr (.inr (.inr (.inr (.inr (.inr (.inr (.inr (.inr (.inr (.inr (.inr (.inr (.inr (.inr (.inl rfl))))))))))))))))))
    | exact .inr (.inr (.inr (.inr (.inr (.inr (.inr (.inr (.inr (.inr (.inr (.inr (.inr (.inr (.inr (.inr (.inr (.inr (.inr (.inl rfl)))))))))))))))))))
    | exact .inr (.inr (.inr (.inr (.inr (.inr (.inr (.inr (.inr (.inr (.inr (.inr (.inr (.inr (.inr (.inr (.inr (.inr (.inr (.inr (.inl rfl))))))))))))))))))))
    | exact .inr (.inr (.inr (.inr (.inr (.inr (.inr (.inr (.inr (.inr (.inr (.inr (.inr (.inr (.inr (.inr (.inr (.inr (.inr (.inr (.inr (.inl rfl)))))))))))))))))))))
    | exact .inr (.inr (.inr (.inr (.inr (.inr (.inr (.inr (.inr (.inr (.inr (.inr (.inr (.inr (.inr (.inr (.inr (.inr (.inr (.inr (.inr (.inr (.inl rfl))))))))))))))))))))))
    | exact .inr (.inr (.inr (.inr (.inr (.inr (.inr (.inr (.inr (.inr (.inr (.inr (.inr (.inr (.inr (.inr (.inr (.inr (.inr (.inr (.inr (.inr (.inr (.inl rfl)))))))))))))))))))))))
    | exact .inr (.inr (.inr (.inr (.inr (.inr (.inr (.inr (.inr (.inr (.inr (.inr (.inr (.inr (.inr (.inr (.inr (.inr (.inr (.inr (.inr (.inr (.inr (.inr (.inl rfl))))))))))))))))))))))))
    | exact .inr (.inr (.inr (.inr (.inr (.inr (.inr (.inr (.inr (.inr (.inr (.inr (.inr (.inr (.inr (.inr (.inr (.inr (.inr (.inr (.inr (.inr (.inr (.inr (.inr (⟨_, rfl⟩)))))))))))))))))))))))))

/-- The instructions that touch the stack. -/
theorem stack_cases (i : Instr) (h : ¬(pushes i = 0 ∧ pulls i = 0)) :
    (∃ w, i = .jsr w) ∨ i = .rts ∨ i = .brk ∨ i = .rti ∨ i = .pha ∨ i = .pla ∨ i = .php ∨
      i = .plp := by
  cases i <;> first | exact absurd ⟨rfl, rfl⟩ h | simp

/-! ### The stack counts, one instruction at a time -/

theorem pushes_jsr (w : Addr) : pushes (.jsr w) = 2 := rfl
theorem pulls_jsr (w : Addr) : pulls (.jsr w) = 0 := rfl
theorem pushes_rts : pushes .rts = 0 := rfl
theorem pulls_rts : pulls .rts = 2 := rfl
theorem pushes_brk : pushes .brk = 3 := rfl
theorem pulls_brk : pulls .brk = 0 := rfl
theorem pushes_rti : pushes .rti = 0 := rfl
theorem pulls_rti : pulls .rti = 3 := rfl
theorem pushes_pha : pushes .pha = 1 := rfl
theorem pulls_pha : pulls .pha = 0 := rfl
theorem pushes_pla : pushes .pla = 0 := rfl
theorem pulls_pla : pulls .pla = 1 := rfl
theorem pushes_php : pushes .php = 1 := rfl
theorem pulls_php : pulls .php = 0 := rfl
theorem pushes_plp : pushes .plp = 0 := rfl
theorem pulls_plp : pulls .plp = 1 := rfl

/-! ### The addresses pushed to -/

theorem storedAddrs_jsr (w : Addr) (s : State) :
    storedAddrs (.jsr w) s =
      [stackAddr (s.sp + BitVec.ofNat 8 0), stackAddr (s.sp + BitVec.ofNat 8 1)] := rfl

theorem storedAddrs_brk (s : State) :
    storedAddrs .brk s =
      [stackAddr (s.sp + BitVec.ofNat 8 0), stackAddr (s.sp + BitVec.ofNat 8 1),
        stackAddr (s.sp + BitVec.ofNat 8 2)] := rfl

theorem storedAddrs_pha (s : State) :
    storedAddrs .pha s = [stackAddr (s.sp + BitVec.ofNat 8 0)] := rfl

theorem storedAddrs_php (s : State) :
    storedAddrs .php s = [stackAddr (s.sp + BitVec.ofNat 8 0)] := rfl

end Sys2Proof.Laws
end

