-- ==== Sys2Proof/Laws/State.lean ====
section
/-! SUPPORT. One lemma per field per update of State, each true by unfolding the update once. -/

namespace Sys2Proof.Laws

open Sys2Proof.Machine

/-! ### setPc -/

@[simp] theorem setPc_pc (s : State) (v : Addr) : (s.setPc v).pc = v := rfl
@[simp] theorem setPc_sp (s : State) (v : Addr) : (s.setPc v).sp = s.sp := rfl
@[simp] theorem setPc_a (s : State) (v : Addr) : (s.setPc v).a = s.a := rfl
@[simp] theorem setPc_x (s : State) (v : Addr) : (s.setPc v).x = s.x := rfl
@[simp] theorem setPc_y (s : State) (v : Addr) : (s.setPc v).y = s.y := rfl
@[simp] theorem setPc_p (s : State) (v : Addr) : (s.setPc v).p = s.p := rfl
@[simp] theorem setPc_cyc (s : State) (v : Addr) : (s.setPc v).cyc = s.cyc := rfl
@[simp] theorem setPc_budget (s : State) (v : Addr) : (s.setPc v).budget = s.budget := rfl
@[simp] theorem setPc_run (s : State) (v : Addr) : (s.setPc v).run = s.run := rfl
@[simp] theorem setPc_diag (s : State) (v : Addr) : (s.setPc v).diag = s.diag := rfl
@[simp] theorem setPc_mem (s : State) (v : Addr) : (s.setPc v).mem = s.mem := rfl
@[simp] theorem setPc_cfg (s : State) (v : Addr) : (s.setPc v).cfg = s.cfg := rfl
@[simp] theorem setPc_script (s : State) (v : Addr) : (s.setPc v).script = s.script := rfl
@[simp] theorem memRead_setPc (s : State) (v : Addr) (addr : Addr) :
    memRead (s.setPc v) addr = memRead s addr := rfl

/-! ### setSp -/

@[simp] theorem setSp_pc (s : State) (v : Byte) : (s.setSp v).pc = s.pc := rfl
@[simp] theorem setSp_sp (s : State) (v : Byte) : (s.setSp v).sp = v := rfl
@[simp] theorem setSp_a (s : State) (v : Byte) : (s.setSp v).a = s.a := rfl
@[simp] theorem setSp_x (s : State) (v : Byte) : (s.setSp v).x = s.x := rfl
@[simp] theorem setSp_y (s : State) (v : Byte) : (s.setSp v).y = s.y := rfl
@[simp] theorem setSp_p (s : State) (v : Byte) : (s.setSp v).p = s.p := rfl
@[simp] theorem setSp_cyc (s : State) (v : Byte) : (s.setSp v).cyc = s.cyc := rfl
@[simp] theorem setSp_budget (s : State) (v : Byte) : (s.setSp v).budget = s.budget := rfl
@[simp] theorem setSp_run (s : State) (v : Byte) : (s.setSp v).run = s.run := rfl
@[simp] theorem setSp_diag (s : State) (v : Byte) : (s.setSp v).diag = s.diag := rfl
@[simp] theorem setSp_mem (s : State) (v : Byte) : (s.setSp v).mem = s.mem := rfl
@[simp] theorem setSp_cfg (s : State) (v : Byte) : (s.setSp v).cfg = s.cfg := rfl
@[simp] theorem setSp_script (s : State) (v : Byte) : (s.setSp v).script = s.script := rfl
@[simp] theorem memRead_setSp (s : State) (v : Byte) (addr : Addr) :
    memRead (s.setSp v) addr = memRead s addr := rfl

/-! ### setA -/

@[simp] theorem setA_pc (s : State) (v : Byte) : (s.setA v).pc = s.pc := rfl
@[simp] theorem setA_sp (s : State) (v : Byte) : (s.setA v).sp = s.sp := rfl
@[simp] theorem setA_a (s : State) (v : Byte) : (s.setA v).a = v := rfl
@[simp] theorem setA_x (s : State) (v : Byte) : (s.setA v).x = s.x := rfl
@[simp] theorem setA_y (s : State) (v : Byte) : (s.setA v).y = s.y := rfl
@[simp] theorem setA_p (s : State) (v : Byte) : (s.setA v).p = s.p := rfl
@[simp] theorem setA_cyc (s : State) (v : Byte) : (s.setA v).cyc = s.cyc := rfl
@[simp] theorem setA_budget (s : State) (v : Byte) : (s.setA v).budget = s.budget := rfl
@[simp] theorem setA_run (s : State) (v : Byte) : (s.setA v).run = s.run := rfl
@[simp] theorem setA_diag (s : State) (v : Byte) : (s.setA v).diag = s.diag := rfl
@[simp] theorem setA_mem (s : State) (v : Byte) : (s.setA v).mem = s.mem := rfl
@[simp] theorem setA_cfg (s : State) (v : Byte) : (s.setA v).cfg = s.cfg := rfl
@[simp] theorem setA_script (s : State) (v : Byte) : (s.setA v).script = s.script := rfl
@[simp] theorem memRead_setA (s : State) (v : Byte) (addr : Addr) :
    memRead (s.setA v) addr = memRead s addr := rfl

/-! ### setX -/

@[simp] theorem setX_pc (s : State) (v : Byte) : (s.setX v).pc = s.pc := rfl
@[simp] theorem setX_sp (s : State) (v : Byte) : (s.setX v).sp = s.sp := rfl
@[simp] theorem setX_a (s : State) (v : Byte) : (s.setX v).a = s.a := rfl
@[simp] theorem setX_x (s : State) (v : Byte) : (s.setX v).x = v := rfl
@[simp] theorem setX_y (s : State) (v : Byte) : (s.setX v).y = s.y := rfl
@[simp] theorem setX_p (s : State) (v : Byte) : (s.setX v).p = s.p := rfl
@[simp] theorem setX_cyc (s : State) (v : Byte) : (s.setX v).cyc = s.cyc := rfl
@[simp] theorem setX_budget (s : State) (v : Byte) : (s.setX v).budget = s.budget := rfl
@[simp] theorem setX_run (s : State) (v : Byte) : (s.setX v).run = s.run := rfl
@[simp] theorem setX_diag (s : State) (v : Byte) : (s.setX v).diag = s.diag := rfl
@[simp] theorem setX_mem (s : State) (v : Byte) : (s.setX v).mem = s.mem := rfl
@[simp] theorem setX_cfg (s : State) (v : Byte) : (s.setX v).cfg = s.cfg := rfl
@[simp] theorem setX_script (s : State) (v : Byte) : (s.setX v).script = s.script := rfl
@[simp] theorem memRead_setX (s : State) (v : Byte) (addr : Addr) :
    memRead (s.setX v) addr = memRead s addr := rfl

/-! ### setY -/

@[simp] theorem setY_pc (s : State) (v : Byte) : (s.setY v).pc = s.pc := rfl
@[simp] theorem setY_sp (s : State) (v : Byte) : (s.setY v).sp = s.sp := rfl
@[simp] theorem setY_a (s : State) (v : Byte) : (s.setY v).a = s.a := rfl
@[simp] theorem setY_x (s : State) (v : Byte) : (s.setY v).x = s.x := rfl
@[simp] theorem setY_y (s : State) (v : Byte) : (s.setY v).y = v := rfl
@[simp] theorem setY_p (s : State) (v : Byte) : (s.setY v).p = s.p := rfl
@[simp] theorem setY_cyc (s : State) (v : Byte) : (s.setY v).cyc = s.cyc := rfl
@[simp] theorem setY_budget (s : State) (v : Byte) : (s.setY v).budget = s.budget := rfl
@[simp] theorem setY_run (s : State) (v : Byte) : (s.setY v).run = s.run := rfl
@[simp] theorem setY_diag (s : State) (v : Byte) : (s.setY v).diag = s.diag := rfl
@[simp] theorem setY_mem (s : State) (v : Byte) : (s.setY v).mem = s.mem := rfl
@[simp] theorem setY_cfg (s : State) (v : Byte) : (s.setY v).cfg = s.cfg := rfl
@[simp] theorem setY_script (s : State) (v : Byte) : (s.setY v).script = s.script := rfl
@[simp] theorem memRead_setY (s : State) (v : Byte) (addr : Addr) :
    memRead (s.setY v) addr = memRead s addr := rfl

/-! ### setP -/

@[simp] theorem setP_pc (s : State) (v : Flags) : (s.setP v).pc = s.pc := rfl
@[simp] theorem setP_sp (s : State) (v : Flags) : (s.setP v).sp = s.sp := rfl
@[simp] theorem setP_a (s : State) (v : Flags) : (s.setP v).a = s.a := rfl
@[simp] theorem setP_x (s : State) (v : Flags) : (s.setP v).x = s.x := rfl
@[simp] theorem setP_y (s : State) (v : Flags) : (s.setP v).y = s.y := rfl
@[simp] theorem setP_p (s : State) (v : Flags) : (s.setP v).p = v := rfl
@[simp] theorem setP_cyc (s : State) (v : Flags) : (s.setP v).cyc = s.cyc := rfl
@[simp] theorem setP_budget (s : State) (v : Flags) : (s.setP v).budget = s.budget := rfl
@[simp] theorem setP_run (s : State) (v : Flags) : (s.setP v).run = s.run := rfl
@[simp] theorem setP_diag (s : State) (v : Flags) : (s.setP v).diag = s.diag := rfl
@[simp] theorem setP_mem (s : State) (v : Flags) : (s.setP v).mem = s.mem := rfl
@[simp] theorem setP_cfg (s : State) (v : Flags) : (s.setP v).cfg = s.cfg := rfl
@[simp] theorem setP_script (s : State) (v : Flags) : (s.setP v).script = s.script := rfl
@[simp] theorem memRead_setP (s : State) (v : Flags) (addr : Addr) :
    memRead (s.setP v) addr = memRead s addr := rfl

/-! ### setRun -/

@[simp] theorem setRun_pc (s : State) (v : RunState) : (s.setRun v).pc = s.pc := rfl
@[simp] theorem setRun_sp (s : State) (v : RunState) : (s.setRun v).sp = s.sp := rfl
@[simp] theorem setRun_a (s : State) (v : RunState) : (s.setRun v).a = s.a := rfl
@[simp] theorem setRun_x (s : State) (v : RunState) : (s.setRun v).x = s.x := rfl
@[simp] theorem setRun_y (s : State) (v : RunState) : (s.setRun v).y = s.y := rfl
@[simp] theorem setRun_p (s : State) (v : RunState) : (s.setRun v).p = s.p := rfl
@[simp] theorem setRun_cyc (s : State) (v : RunState) : (s.setRun v).cyc = s.cyc := rfl
@[simp] theorem setRun_budget (s : State) (v : RunState) : (s.setRun v).budget = s.budget := rfl
@[simp] theorem setRun_run (s : State) (v : RunState) : (s.setRun v).run = v := rfl
@[simp] theorem setRun_diag (s : State) (v : RunState) : (s.setRun v).diag = s.diag := rfl
@[simp] theorem setRun_mem (s : State) (v : RunState) : (s.setRun v).mem = s.mem := rfl
@[simp] theorem setRun_cfg (s : State) (v : RunState) : (s.setRun v).cfg = s.cfg := rfl
@[simp] theorem setRun_script (s : State) (v : RunState) : (s.setRun v).script = s.script := rfl
@[simp] theorem memRead_setRun (s : State) (v : RunState) (addr : Addr) :
    memRead (s.setRun v) addr = memRead s addr := rfl

/-! ### charge -/

@[simp] theorem charge_pc (s : State) (n : Nat) : (s.charge n).pc = s.pc := rfl
@[simp] theorem charge_sp (s : State) (n : Nat) : (s.charge n).sp = s.sp := rfl
@[simp] theorem charge_a (s : State) (n : Nat) : (s.charge n).a = s.a := rfl
@[simp] theorem charge_x (s : State) (n : Nat) : (s.charge n).x = s.x := rfl
@[simp] theorem charge_y (s : State) (n : Nat) : (s.charge n).y = s.y := rfl
@[simp] theorem charge_p (s : State) (n : Nat) : (s.charge n).p = s.p := rfl
@[simp] theorem charge_cyc (s : State) (n : Nat) : (s.charge n).cyc = s.cyc - n := rfl
@[simp] theorem charge_budget (s : State) (n : Nat) : (s.charge n).budget = s.budget := rfl
@[simp] theorem charge_run (s : State) (n : Nat) : (s.charge n).run = s.run := rfl
@[simp] theorem charge_diag (s : State) (n : Nat) : (s.charge n).diag = s.diag := rfl
@[simp] theorem charge_mem (s : State) (n : Nat) : (s.charge n).mem = s.mem := rfl
@[simp] theorem charge_cfg (s : State) (n : Nat) : (s.charge n).cfg = s.cfg := rfl
@[simp] theorem charge_script (s : State) (n : Nat) : (s.charge n).script = s.script := rfl
@[simp] theorem memRead_charge (s : State) (n : Nat) (addr : Addr) :
    memRead (s.charge n) addr = memRead s addr := rfl

/-! ### setNZ -/

@[simp] theorem setNZ_pc (s : State) (v : Byte) : (s.setNZ v).pc = s.pc := rfl
@[simp] theorem setNZ_sp (s : State) (v : Byte) : (s.setNZ v).sp = s.sp := rfl
@[simp] theorem setNZ_a (s : State) (v : Byte) : (s.setNZ v).a = s.a := rfl
@[simp] theorem setNZ_x (s : State) (v : Byte) : (s.setNZ v).x = s.x := rfl
@[simp] theorem setNZ_y (s : State) (v : Byte) : (s.setNZ v).y = s.y := rfl
@[simp] theorem setNZ_p (s : State) (v : Byte) : (s.setNZ v).p = s.p.setNZ v := rfl
@[simp] theorem setNZ_cyc (s : State) (v : Byte) : (s.setNZ v).cyc = s.cyc := rfl
@[simp] theorem setNZ_budget (s : State) (v : Byte) : (s.setNZ v).budget = s.budget := rfl
@[simp] theorem setNZ_run (s : State) (v : Byte) : (s.setNZ v).run = s.run := rfl
@[simp] theorem setNZ_diag (s : State) (v : Byte) : (s.setNZ v).diag = s.diag := rfl
@[simp] theorem setNZ_mem (s : State) (v : Byte) : (s.setNZ v).mem = s.mem := rfl
@[simp] theorem setNZ_cfg (s : State) (v : Byte) : (s.setNZ v).cfg = s.cfg := rfl
@[simp] theorem setNZ_script (s : State) (v : Byte) : (s.setNZ v).script = s.script := rfl
@[simp] theorem memRead_setNZ (s : State) (v : Byte) (addr : Addr) :
    memRead (s.setNZ v) addr = memRead s addr := rfl

/-! ### memWrite -/

@[simp] theorem memWrite_pc (s : State) (addr : Addr) (v : Byte) :
    (memWrite s addr v).pc = s.pc := rfl
@[simp] theorem memWrite_sp (s : State) (addr : Addr) (v : Byte) :
    (memWrite s addr v).sp = s.sp := rfl
@[simp] theorem memWrite_a (s : State) (addr : Addr) (v : Byte) :
    (memWrite s addr v).a = s.a := rfl
@[simp] theorem memWrite_x (s : State) (addr : Addr) (v : Byte) :
    (memWrite s addr v).x = s.x := rfl
@[simp] theorem memWrite_y (s : State) (addr : Addr) (v : Byte) :
    (memWrite s addr v).y = s.y := rfl
@[simp] theorem memWrite_p (s : State) (addr : Addr) (v : Byte) :
    (memWrite s addr v).p = s.p := rfl
@[simp] theorem memWrite_cyc (s : State) (addr : Addr) (v : Byte) :
    (memWrite s addr v).cyc = s.cyc := rfl
@[simp] theorem memWrite_budget (s : State) (addr : Addr) (v : Byte) :
    (memWrite s addr v).budget = s.budget := rfl
@[simp] theorem memWrite_run (s : State) (addr : Addr) (v : Byte) :
    (memWrite s addr v).run = s.run := rfl
@[simp] theorem memWrite_diag (s : State) (addr : Addr) (v : Byte) :
    (memWrite s addr v).diag = s.diag := rfl
@[simp] theorem memWrite_mem (s : State) (addr : Addr) (v : Byte) :
    (memWrite s addr v).mem = s.mem.write addr.toNat v := rfl
@[simp] theorem memWrite_cfg (s : State) (addr : Addr) (v : Byte) :
    (memWrite s addr v).cfg = s.cfg := rfl
@[simp] theorem memWrite_script (s : State) (addr : Addr) (v : Byte) :
    (memWrite s addr v).script = s.script := rfl

/-! ### Flags -/

@[simp] theorem flags_setNZ_n (p : Flags) (v : Byte) : (p.setNZ v).n = v.getLsbD 7 := rfl
@[simp] theorem flags_setNZ_v (p : Flags) (v : Byte) : (p.setNZ v).v = p.v := rfl
@[simp] theorem flags_setNZ_b (p : Flags) (v : Byte) : (p.setNZ v).b = p.b := rfl
@[simp] theorem flags_setNZ_d (p : Flags) (v : Byte) : (p.setNZ v).d = p.d := rfl
@[simp] theorem flags_setNZ_i (p : Flags) (v : Byte) : (p.setNZ v).i = p.i := rfl
@[simp] theorem flags_setNZ_z (p : Flags) (v : Byte) : (p.setNZ v).z = (v == 0#8) := rfl
@[simp] theorem flags_setNZ_c (p : Flags) (v : Byte) : (p.setNZ v).c = p.c := rfl
@[simp] theorem flags_unpack_n (p : Flags) (byte : Byte) : (p.unpack byte).n = byte.getLsbD 7 := rfl
@[simp] theorem flags_unpack_v (p : Flags) (byte : Byte) : (p.unpack byte).v = byte.getLsbD 6 := rfl
@[simp] theorem flags_unpack_b (p : Flags) (byte : Byte) : (p.unpack byte).b = p.b := rfl
@[simp] theorem flags_unpack_d (p : Flags) (byte : Byte) : (p.unpack byte).d = byte.getLsbD 3 := rfl
@[simp] theorem flags_unpack_i (p : Flags) (byte : Byte) : (p.unpack byte).i = byte.getLsbD 2 := rfl
@[simp] theorem flags_unpack_z (p : Flags) (byte : Byte) : (p.unpack byte).z = byte.getLsbD 1 := rfl
@[simp] theorem flags_unpack_c (p : Flags) (byte : Byte) : (p.unpack byte).c = byte.getLsbD 0 := rfl

end Sys2Proof.Laws
end

