-- ==== Sys2Proof/Laws/Memory.lean ====
section
/-! SUPPORT. What reading and writing a byte of memory do: read after write, and the canonical form kept. -/

namespace Sys2Proof.Laws

open Sys2Proof.Machine

theorem cellsRead_cons (addr k : Nat) (v : Byte) (rest : List Host.Cell) :
    cellsRead ((k, v) :: rest) addr = if k = addr then v else cellsRead rest addr := rfl

/-- Below the first listed address nothing is listed. -/
theorem cellsRead_below {low addr : Nat} {l : List Host.Cell} (h : cellsWf low l = true)
    (hlt : addr < low) : cellsRead l addr = Memory.unlisted := by
  induction l generalizing low with
  | nil => rfl
  | cons c rest ih =>
    obtain ⟨k, v⟩ := c
    simp only [cellsWf, Bool.and_eq_true, decide_eq_true_eq] at h
    rw [cellsRead_cons, if_neg (by omega)]
    exact ih h.2 (by omega)

/-- Reading at the address of a cell put in front. -/
theorem cellsRead_cellsCons_same {low addr : Nat} {l : List Host.Cell} (v : Byte)
    (h : cellsWf low l = true) (hlt : addr < low) : cellsRead (cellsCons addr v l) addr = v := by
  unfold cellsCons
  split
  · rename_i hv
    rw [cellsRead_below h hlt, hv]
  · simp [cellsRead_cons]

theorem cellsRead_cellsCons_other {addr other : Nat} (v : Byte) (l : List Host.Cell)
    (hne : other ≠ addr) : cellsRead (cellsCons addr v l) other = cellsRead l other := by
  unfold cellsCons
  split
  · rfl
  · rw [cellsRead_cons, if_neg (Ne.symm hne)]

theorem cellsRead_cellsWrite_same {low : Nat} {l : List Host.Cell} (addr : Nat) (v : Byte)
    (h : cellsWf low l = true) : cellsRead (cellsWrite l addr v) addr = v := by
  induction l generalizing low with
  | nil => exact cellsRead_cellsCons_same (low := addr + 1) v rfl (by omega)
  | cons c rest ih =>
    obtain ⟨k, w⟩ := c
    have h' := h
    simp only [cellsWf, Bool.and_eq_true, decide_eq_true_eq] at h'
    unfold cellsWrite
    split
    · rename_i hlt
      refine cellsRead_cellsCons_same (low := k) v ?_ hlt
      simp only [cellsWf, Bool.and_eq_true, decide_eq_true_eq]
      exact ⟨⟨⟨le_refl k, h'.1.1.2⟩, h'.1.2⟩, h'.2⟩
    · split
      · rename_i heq
        exact cellsRead_cellsCons_same v h'.2 (by omega)
      · rename_i hne
        rw [cellsRead_cons, if_neg (Ne.symm hne)]
        exact ih h'.2

theorem cellsRead_cellsWrite_other {addr other : Nat} (l : List Host.Cell) (v : Byte)
    (hne : other ≠ addr) : cellsRead (cellsWrite l addr v) other = cellsRead l other := by
  induction l with
  | nil => exact cellsRead_cellsCons_other v [] hne
  | cons c rest ih =>
    obtain ⟨k, w⟩ := c
    unfold cellsWrite
    split
    · exact cellsRead_cellsCons_other v _ hne
    · split
      · rename_i heq
        rw [cellsRead_cellsCons_other v _ hne, cellsRead_cons, if_neg (by omega)]
      · simp only [cellsRead_cons, ih]

theorem cellsWf_weaken {low low' : Nat} {l : List Host.Cell} (h : cellsWf low l = true)
    (hle : low' ≤ low) : cellsWf low' l = true := by
  cases l with
  | nil => rfl
  | cons c rest =>
    obtain ⟨k, v⟩ := c
    simp only [cellsWf, Bool.and_eq_true, decide_eq_true_eq] at h ⊢
    exact ⟨⟨⟨by omega, h.1.1.2⟩, h.1.2⟩, h.2⟩

theorem cellsWf_cellsCons {low addr : Nat} {l : List Host.Cell} (v : Byte)
    (h : cellsWf (addr + 1) l = true) (hlow : low ≤ addr) (hlt : addr < 65536) :
    cellsWf low (cellsCons addr v l) = true := by
  unfold cellsCons
  split
  · exact cellsWf_weaken h (by omega)
  · rename_i hv
    simp only [cellsWf, Bool.and_eq_true, decide_eq_true_eq, bne_iff_ne]
    exact ⟨⟨⟨hlow, hlt⟩, hv⟩, h⟩

theorem cellsWf_cellsWrite {low addr : Nat} {l : List Host.Cell} (v : Byte)
    (h : cellsWf low l = true) (hlow : low ≤ addr) (hlt : addr < 65536) :
    cellsWf low (cellsWrite l addr v) = true := by
  induction l generalizing low with
  | nil => exact cellsWf_cellsCons v rfl hlow hlt
  | cons c rest ih =>
    obtain ⟨k, w⟩ := c
    have h' := h
    simp only [cellsWf, Bool.and_eq_true, decide_eq_true_eq] at h'
    unfold cellsWrite
    split
    · rename_i hk
      refine cellsWf_cellsCons v ?_ hlow hlt
      simp only [cellsWf, Bool.and_eq_true, decide_eq_true_eq]
      exact ⟨⟨⟨by omega, h'.1.1.2⟩, h'.1.2⟩, h'.2⟩
    · split
      · rename_i heq
        subst heq
        exact cellsWf_cellsCons v h'.2 hlow hlt
      · simp only [cellsWf, Bool.and_eq_true, decide_eq_true_eq]
        exact ⟨⟨⟨h'.1.1.1, h'.1.1.2⟩, h'.1.2⟩, ih h'.2 (by omega)⟩

/-! ### The memory -/

/-- A read returns the last value written to that cell (20_memory.md R23). -/
theorem read_write_same {m : Memory} (h : m.wf = true) (addr : Nat) (v : Byte) :
    (m.write addr v).read addr = v := cellsRead_cellsWrite_same addr v h

/-- A write changes that one cell and nothing else (20_memory.md R23). -/
theorem read_write_other (m : Memory) {addr other : Nat} (v : Byte) (hne : other ≠ addr) :
    (m.write addr v).read other = m.read other := cellsRead_cellsWrite_other m.cells v hne

/-- A write keeps the canonical form. -/
theorem write_wf {m : Memory} (h : m.wf = true) {addr : Nat} (v : Byte) (hlt : addr < 65536) :
    (m.write addr v).wf = true := cellsWf_cellsWrite v h (Nat.zero_le _) hlt

/-- In canonical form equal contents are equal lists. -/
theorem cells_ext {low : Nat} {l l' : List Host.Cell} (h : cellsWf low l = true)
    (h' : cellsWf low l' = true) (heq : ∀ addr, cellsRead l addr = cellsRead l' addr) : l = l' := by
  induction l generalizing low l' with
  | nil =>
    cases l' with
    | nil => rfl
    | cons c' rest' =>
      obtain ⟨k', v'⟩ := c'
      simp only [cellsWf, Bool.and_eq_true, decide_eq_true_eq, bne_iff_ne] at h'
      have := heq k'
      rw [cellsRead_cons, if_pos rfl] at this
      exact absurd this.symm h'.1.2
  | cons c rest ih =>
    obtain ⟨k, v⟩ := c
    have hw := h
    simp only [cellsWf, Bool.and_eq_true, decide_eq_true_eq, bne_iff_ne] at h
    cases l' with
    | nil =>
      have := heq k
      rw [cellsRead_cons, if_pos rfl] at this
      exact absurd this h.1.2
    | cons c' rest' =>
      obtain ⟨k', v'⟩ := c'
      have hw' := h'
      simp only [cellsWf, Bool.and_eq_true, decide_eq_true_eq, bne_iff_ne] at h'
      have hk : k = k' := by
        rcases Nat.lt_trichotomy k k' with hlt | heq' | hlt
        · have := heq k
          rw [cellsRead_cons, if_pos rfl, cellsRead_cons, if_neg (by omega),
            cellsRead_below h'.2 (by omega)] at this
          exact absurd this h.1.2
        · exact heq'
        · have := heq k'
          rw [cellsRead_cons, if_neg (by omega), cellsRead_cons, if_pos rfl,
            cellsRead_below h.2 (by omega)] at this
          exact absurd this.symm h'.1.2
      subst hk
      have hv : v = v' := by simpa [cellsRead_cons] using heq k
      subst hv
      refine congrArg _ (ih h.2 h'.2 fun addr => ?_)
      by_cases ha : k = addr
      · subst ha
        rw [cellsRead_below h.2 (by omega), cellsRead_below h'.2 (by omega)]
      · simpa [cellsRead_cons, ha] using heq addr

/-- Two memories in canonical form that read alike everywhere are equal. -/
theorem memory_ext {m m' : Memory} (h : m.wf = true) (h' : m'.wf = true)
    (heq : ∀ addr, m.read addr = m'.read addr) : m = m' := by
  cases m; cases m'
  exact congrArg Memory.mk (cells_ext h h' heq)

/-! ### The state's memory -/

theorem memRead_memWrite_same {s : State} (h : s.mem.wf = true) (addr : Addr) (v : Byte) :
    memRead (memWrite s addr v) addr = v := read_write_same h addr.toNat v

theorem memRead_memWrite_other (s : State) {addr other : Addr} (v : Byte) (hne : other ≠ addr) :
    memRead (memWrite s addr v) other = memRead s other :=
  read_write_other s.mem v fun h => hne (BitVec.eq_of_toNat_eq h)

theorem memWrite_wf {s : State} (h : s.mem.wf = true) (addr : Addr) (v : Byte) :
    (memWrite s addr v).mem.wf = true := write_wf h v addr.isLt

end Sys2Proof.Laws
end

