-- ==== Sys2Proof/Laws/Ops.lean ====
section
/-! SUPPORT. One lemma for each shared operation that says everything it does; proofs cite these instead of unfolding the operation. -/

namespace Sys2Proof.Laws

open Sys2Proof.Machine Sys2Proof.Safety

/-! ### Bytes and words -/

theorem joinBytes_toNat (hi lo : Byte) : (joinBytes hi lo).toNat = hi.toNat * 256 + lo.toNat := by
  unfold joinBytes
  rw [BitVec.toNat_append, Nat.shiftLeft_eq, ← Nat.shiftLeft_eq,
    ← Nat.shiftLeft_add_eq_or_of_lt lo.isLt, Nat.shiftLeft_eq]

theorem lowByte_toNat (w : Addr) : (lowByte w).toNat = w.toNat % 256 := by
  simp [lowByte, BitVec.extractLsb'_toNat]

theorem highByte_toNat (w : Addr) : (highByte w).toNat = w.toNat / 256 := by
  have := w.isLt
  simp only [highByte, BitVec.extractLsb'_toNat, Nat.shiftRight_eq_div_pow]
  omega

@[simp] theorem lowByte_joinBytes (hi lo : Byte) : lowByte (joinBytes hi lo) = lo := by
  have := lo.isLt
  apply BitVec.eq_of_toNat_eq
  rw [lowByte_toNat, joinBytes_toNat]
  omega

@[simp] theorem highByte_joinBytes (hi lo : Byte) : highByte (joinBytes hi lo) = hi := by
  have := lo.isLt
  apply BitVec.eq_of_toNat_eq
  rw [highByte_toNat, joinBytes_toNat]
  omega

@[simp] theorem joinBytes_highByte_lowByte (w : Addr) : joinBytes (highByte w) (lowByte w) = w := by
  apply BitVec.eq_of_toNat_eq
  rw [joinBytes_toNat, lowByte_toNat, highByte_toNat]
  omega

theorem zeroExtend16_toNat (b : Byte) : (zeroExtend16 b).toNat = b.toNat := by
  have := b.isLt
  simp only [zeroExtend16, BitVec.toNat_setWidth]
  omega

theorem stackAddr_toNat (sp : Byte) : (stackAddr sp).toNat = 256 + sp.toNat := by
  have := sp.isLt
  simp only [stackAddr, BitVec.toNat_add, zeroExtend16_toNat, BitVec.toNat_ofNat]
  omega

theorem stackAddr_injective {p q : Byte} (h : stackAddr p = stackAddr q) : p = q := by
  have := congrArg BitVec.toNat h
  rw [stackAddr_toNat, stackAddr_toNat] at this
  exact BitVec.eq_of_toNat_eq (by omega)

/-- Every stack address lies in page 1 (44_jsr_stack.md R89). -/
theorem stackAddr_page (sp : Byte) : highByte (stackAddr sp) = 0x01#8 := by
  have := sp.isLt
  apply BitVec.eq_of_toNat_eq
  rw [highByte_toNat, stackAddr_toNat]
  show (256 + sp.toNat) / 256 = 1
  omega

theorem pageDiffers_eq (p q : Addr) : pageDiffers p q = (p.toNat / 256 != q.toNat / 256) := by
  rw [Bool.eq_iff_iff]
  simp only [pageDiffers, bne_iff_ne, ne_eq, ← BitVec.toNat_inj, highByte_toNat]

/-! ### Fetches -/

theorem pastByte_eq (s : State) : pastByte s = { s with pc := s.pc + 1, cyc := s.cyc - 1 } := rfl

theorem pastWord_eq (s : State) : pastWord s = { s with pc := s.pc + 2, cyc := s.cyc - 2 } := by
  show { s with pc := s.pc + 1 + 1, cyc := s.cyc - 1 - 1 } = _
  rw [BitVec.add_assoc, Int.sub_sub]
  rfl

theorem implied_eq (s : State) : implied s = { s with cyc := s.cyc - 1 } := rfl

/-! ### The stack -/

theorem pushByte_eq (s : State) (v : Byte) :
    pushByte s v =
      { s with mem := s.mem.write (stackAddr s.sp).toNat v, sp := s.sp + 1, cyc := s.cyc - 1 } := rfl

theorem pullByte_eq (s : State) :
    pullByte s =
      (memRead s (stackAddr (s.sp - 1)), { s with sp := s.sp - 1, cyc := s.cyc - 1 }) := rfl

theorem pushWord_eq (s : State) (w : Addr) :
    pushWord s w =
      { s with
        mem := (s.mem.write (stackAddr s.sp).toNat (lowByte w)).write
          (stackAddr (s.sp + 1)).toNat (highByte w)
        sp := s.sp + 2, cyc := s.cyc - 2 } := by
  show { s with mem := _, sp := s.sp + 1 + 1, cyc := s.cyc - 1 - 1 } = _
  rw [BitVec.add_assoc, Int.sub_sub]
  rfl

theorem pullWord_eq (s : State) :
    pullWord s =
      (joinBytes (memRead s (stackAddr (s.sp - 1))) (memRead s (stackAddr (s.sp - 2))),
        { s with sp := s.sp - 2, cyc := s.cyc - 2 }) := by
  have h : s.sp - 1 - 1 = s.sp - 2 := by rw [BitVec.sub_sub]; rfl
  show (joinBytes (memRead s (stackAddr (s.sp - 1))) (memRead s (stackAddr (s.sp - 1 - 1))),
      { s with sp := s.sp - 1 - 1, cyc := s.cyc - 1 - 1 }) = _
  rw [h, Int.sub_sub]
  rfl

/-! ### Canonical memory is kept -/

theorem writeByte_wf {s : State} (h : s.mem.wf = true) (addr : Addr) (v : Byte) :
    (writeByte s addr v).mem.wf = true := memWrite_wf h addr v

theorem memWriteWord_wf {s : State} (h : s.mem.wf = true) (addr v : Addr) :
    (memWriteWord s addr v).mem.wf = true := memWrite_wf (memWrite_wf h addr _) _ _

theorem pushByte_wf {s : State} (h : s.mem.wf = true) (v : Byte) :
    (pushByte s v).mem.wf = true := memWrite_wf h _ v

theorem pushWord_wf {s : State} (h : s.mem.wf = true) (w : Addr) :
    (pushWord s w).mem.wf = true := pushByte_wf (pushByte_wf h _) _

theorem enterSoftwareInterrupt_wf {s : State} (h : s.mem.wf = true) :
    (enterSoftwareInterrupt s).mem.wf = true := by
  have ht : (enterSoftwareInterrupt s).mem =
      (pushByte (pushWord s s.pc) (pushedFlags s.p)).mem := by unfold enterSoftwareInterrupt; rfl
  rw [ht]
  exact pushByte_wf (pushWord_wf h _) _

/-- Everything entering the software interrupt does. -/
theorem enterSoftwareInterrupt_eq (s : State) :
    let t := pushByte (pushWord s s.pc) (pushedFlags s.p)
    enterSoftwareInterrupt s =
      { t with p := { s.p with i := true }, pc := memReadWord t 0xFFFE#16, cyc := s.cyc - 5 } := by
  intro t
  have hp : t.p = s.p := rfl
  have hc : t.cyc - (2 : Nat) = s.cyc - 5 := by
    show s.cyc - (1 : Nat) - (1 : Nat) - (1 : Nat) - (2 : Nat) = s.cyc - 5
    omega
  unfold enterSoftwareInterrupt
  show ((t.setP { t.p with i := true }).setPc (memReadWord t brkVector)).charge 2 = _
  simp only [State.charge, State.setPc, State.setP, hp, hc, brkVector]

/-- Everything the return from it does. -/
theorem returnFromInterrupt_eq (s : State) :
    returnFromInterrupt s =
      { s with
        p := s.p.unpack (memRead s (stackAddr (s.sp - 1)))
        pc := joinBytes (memRead s (stackAddr (s.sp - 2))) (memRead s (stackAddr (s.sp - 3)))
        sp := s.sp - 3, cyc := s.cyc - 5 } := by
  have h2 : s.sp - 1 - 1 = s.sp - 2 := by rw [BitVec.sub_sub]; rfl
  have h3 : s.sp - 1 - 2 = s.sp - 3 := by rw [BitVec.sub_sub]; rfl
  have hc : s.cyc - 1 - 2 - (2 : Nat) = s.cyc - 5 := by omega
  simp only [returnFromInterrupt, pullByte_eq, pullWord_eq, State.setP, State.setPc, State.charge,
    h2, h3, hc]
  rfl

/-- A guarded step is refused exactly when STACK_CHECK = on and S would wrap. -/
theorem stackGuard_cases (s : State) (wraps : Bool) (k : Result) :
    (stackGuard s wraps k = k ∧ ¬(s.cfg.stackCheck = .on ∧ wraps = true)) ∨
      (stackGuard s wraps k = .refused .stackWrap ∧ s.cfg.stackCheck = .on ∧ wraps = true) := by
  unfold stackGuard
  split
  · exact .inr ⟨rfl, ‹_›⟩
  · exact .inl ⟨rfl, ‹_›⟩

/-- A guarded ADC or SBC is refused exactly when DECIMAL_POLICY = refuse and D = 1. -/
theorem decimalGuard_cases (s : State) (k : Result) :
    (decimalGuard s k = k ∧ ¬(s.cfg.decimalPolicy = .refuse ∧ s.p.d = true)) ∨
      (decimalGuard s k = .refused .decimalMode ∧ s.cfg.decimalPolicy = .refuse ∧ s.p.d = true) := by
  unfold decimalGuard
  split
  · exact .inr ⟨rfl, ‹_›⟩
  · exact .inl ⟨rfl, ‹_›⟩

/-! ### The resolvers -/

/-- Adding an index to a base charges one cycle or none and changes nothing else. -/
theorem indexed_state (acc : Access) (base : Addr) (index : Byte) (s : State) :
    (indexed acc base index s).1 = base + zeroExtend16 index ∧
      ∃ n : Nat, n ≤ 1 ∧ (indexed acc base index s).2 = { s with cyc := s.cyc - n } := by
  cases acc
  · by_cases h : pageDiffers (base + zeroExtend16 index) base = true
    · exact ⟨rfl, 1, le_refl 1, by simp [indexed, h, State.charge]⟩
    · exact ⟨rfl, 0, Nat.zero_le 1, by simp [indexed, h]⟩
  · exact ⟨rfl, 1, le_refl 1, rfl⟩

/-- Everything a resolver does to the state: PC passes the operand bytes, cycles are charged. -/
theorem resolve_state (acc : Access) (m : Mode) (s : State) :
    ∃ n : Nat, (resolve acc m s).2 =
      { s with pc := s.pc + BitVec.ofNat 16 (modeBytes m), cyc := s.cyc - n } := by
  have idx (base : Addr) (index : Byte) (t : State) (pc : Addr) (k : Nat)
      (ht : t = { s with pc := pc, cyc := s.cyc - k }) :
      ∃ n : Nat, (indexed acc base index t).2 = { s with pc := pc, cyc := s.cyc - n } := by
    obtain ⟨-, n, -, h⟩ := indexed_state acc base index t
    refine ⟨k + n, h.trans ?_⟩
    subst ht
    simp only [Nat.cast_add, Int.sub_sub]
  cases m with
  | zp d => exact ⟨1, rfl⟩
  | zpX d => exact ⟨2, by simp [resolve, zeroPageX, zeroPageIndexed, pastByte_eq, State.charge,
      Int.sub_sub, modeBytes]⟩
  | zpY d => exact ⟨2, by simp [resolve, zeroPageY, zeroPageIndexed, pastByte_eq, State.charge,
      Int.sub_sub, modeBytes]⟩
  | abs w => exact ⟨2, pastWord_eq s⟩
  | absX w => exact idx w s.x _ _ 2 (pastWord_eq s)
  | absY w => exact idx w s.y _ _ 2 (pastWord_eq s)
  | indX d => exact ⟨4, by simp [resolve, indirectX, zeroPagePointer, readByte, pastByte_eq,
      State.charge, Int.sub_sub, modeBytes]⟩
  | indY d => exact idx _ s.y _ _ 3 (by simp [zeroPagePointer, readByte, pastByte_eq, State.charge,
      Int.sub_sub, modeBytes])

/-- Everything reading an operand does to the state. -/
theorem operand_state (src : Source) (s : State) :
    ∃ n : Nat, (operand src s).2 =
      { s with pc := s.pc + BitVec.ofNat 16 (sourceBytes src), cyc := s.cyc - n } := by
  cases src with
  | imm v => exact ⟨1, rfl⟩
  | mem m =>
    obtain ⟨n, h⟩ := resolve_state .reading m s
    refine ⟨n + 1, ?_⟩
    show (resolve .reading m s).2.charge 1 = _
    rw [h]
    simp only [State.charge, Nat.cast_add, Int.sub_sub, sourceBytes]

end Sys2Proof.Laws
end

