-- ==== Sys2Proof/Laws/PerInstr.lean ====
section
/-! SUPPORT. Statements made once per instruction: the opcode table gives every encoding its length (30_encoding.md R42, R43). -/

namespace Sys2Proof.Laws.EncodedLength

/-- An instruction of the full table is encoded as its opcode byte and as many bytes more as the
format of that opcode byte has. -/
def Statement (i : Instr) : Prop :=
  i.wellFormed .ext = true →
    ∃ op rest, encode i = op :: rest ∧ rest.length = operandLength .ext op

theorem ldaImm (v : Byte) : Statement (.ldaImm v) := fun _ => ⟨_, _, rfl, rfl⟩
theorem ldaZp (d : Byte) : Statement (.ldaZp d) := fun _ => ⟨_, _, rfl, rfl⟩
theorem ldaZpX (d : Byte) : Statement (.ldaZpX d) := fun _ => ⟨_, _, rfl, rfl⟩
theorem ldaAbs (w : Addr) : Statement (.ldaAbs w) := fun _ => ⟨_, _, rfl, rfl⟩
theorem ldaAbsX (w : Addr) : Statement (.ldaAbsX w) := fun _ => ⟨_, _, rfl, rfl⟩
theorem ldaAbsY (w : Addr) : Statement (.ldaAbsY w) := fun _ => ⟨_, _, rfl, rfl⟩
theorem ldaIndX (d : Byte) : Statement (.ldaIndX d) := fun _ => ⟨_, _, rfl, rfl⟩
theorem ldaIndY (d : Byte) : Statement (.ldaIndY d) := fun _ => ⟨_, _, rfl, rfl⟩
theorem ldxImm (v : Byte) : Statement (.ldxImm v) := fun _ => ⟨_, _, rfl, rfl⟩
theorem ldxZp (d : Byte) : Statement (.ldxZp d) := fun _ => ⟨_, _, rfl, rfl⟩
theorem ldxZpY (d : Byte) : Statement (.ldxZpY d) := fun _ => ⟨_, _, rfl, rfl⟩
theorem ldxAbs (w : Addr) : Statement (.ldxAbs w) := fun _ => ⟨_, _, rfl, rfl⟩
theorem ldxAbsY (w : Addr) : Statement (.ldxAbsY w) := fun _ => ⟨_, _, rfl, rfl⟩
theorem ldyImm (v : Byte) : Statement (.ldyImm v) := fun _ => ⟨_, _, rfl, rfl⟩
theorem ldyZp (d : Byte) : Statement (.ldyZp d) := fun _ => ⟨_, _, rfl, rfl⟩
theorem ldyZpX (d : Byte) : Statement (.ldyZpX d) := fun _ => ⟨_, _, rfl, rfl⟩
theorem ldyAbs (w : Addr) : Statement (.ldyAbs w) := fun _ => ⟨_, _, rfl, rfl⟩
theorem ldyAbsX (w : Addr) : Statement (.ldyAbsX w) := fun _ => ⟨_, _, rfl, rfl⟩
theorem staZp (d : Byte) : Statement (.staZp d) := fun _ => ⟨_, _, rfl, rfl⟩
theorem staZpX (d : Byte) : Statement (.staZpX d) := fun _ => ⟨_, _, rfl, rfl⟩
theorem staAbs (w : Addr) : Statement (.staAbs w) := fun _ => ⟨_, _, rfl, rfl⟩
theorem staAbsX (w : Addr) : Statement (.staAbsX w) := fun _ => ⟨_, _, rfl, rfl⟩
theorem staAbsY (w : Addr) : Statement (.staAbsY w) := fun _ => ⟨_, _, rfl, rfl⟩
theorem staIndX (d : Byte) : Statement (.staIndX d) := fun _ => ⟨_, _, rfl, rfl⟩
theorem staIndY (d : Byte) : Statement (.staIndY d) := fun _ => ⟨_, _, rfl, rfl⟩
theorem stxZp (d : Byte) : Statement (.stxZp d) := fun _ => ⟨_, _, rfl, rfl⟩
theorem stxZpY (d : Byte) : Statement (.stxZpY d) := fun _ => ⟨_, _, rfl, rfl⟩
theorem stxAbs (w : Addr) : Statement (.stxAbs w) := fun _ => ⟨_, _, rfl, rfl⟩
theorem styZp (d : Byte) : Statement (.styZp d) := fun _ => ⟨_, _, rfl, rfl⟩
theorem styZpX (d : Byte) : Statement (.styZpX d) := fun _ => ⟨_, _, rfl, rfl⟩
theorem styAbs (w : Addr) : Statement (.styAbs w) := fun _ => ⟨_, _, rfl, rfl⟩
theorem tax : Statement (.tax) := fun _ => ⟨_, _, rfl, rfl⟩
theorem tay : Statement (.tay) := fun _ => ⟨_, _, rfl, rfl⟩
theorem txa : Statement (.txa) := fun _ => ⟨_, _, rfl, rfl⟩
theorem tya : Statement (.tya) := fun _ => ⟨_, _, rfl, rfl⟩
theorem tsx : Statement (.tsx) := fun _ => ⟨_, _, rfl, rfl⟩
theorem txs : Statement (.txs) := fun _ => ⟨_, _, rfl, rfl⟩
theorem adcImm (v : Byte) : Statement (.adcImm v) := fun _ => ⟨_, _, rfl, rfl⟩
theorem adcZp (d : Byte) : Statement (.adcZp d) := fun _ => ⟨_, _, rfl, rfl⟩
theorem adcZpX (d : Byte) : Statement (.adcZpX d) := fun _ => ⟨_, _, rfl, rfl⟩
theorem adcAbs (w : Addr) : Statement (.adcAbs w) := fun _ => ⟨_, _, rfl, rfl⟩
theorem adcAbsX (w : Addr) : Statement (.adcAbsX w) := fun _ => ⟨_, _, rfl, rfl⟩
theorem adcAbsY (w : Addr) : Statement (.adcAbsY w) := fun _ => ⟨_, _, rfl, rfl⟩
theorem adcIndX (d : Byte) : Statement (.adcIndX d) := fun _ => ⟨_, _, rfl, rfl⟩
theorem adcIndY (d : Byte) : Statement (.adcIndY d) := fun _ => ⟨_, _, rfl, rfl⟩
theorem sbcImm (v : Byte) : Statement (.sbcImm v) := fun _ => ⟨_, _, rfl, rfl⟩
theorem sbcZp (d : Byte) : Statement (.sbcZp d) := fun _ => ⟨_, _, rfl, rfl⟩
theorem sbcZpX (d : Byte) : Statement (.sbcZpX d) := fun _ => ⟨_, _, rfl, rfl⟩
theorem sbcAbs (w : Addr) : Statement (.sbcAbs w) := fun _ => ⟨_, _, rfl, rfl⟩
theorem sbcAbsX (w : Addr) : Statement (.sbcAbsX w) := fun _ => ⟨_, _, rfl, rfl⟩
theorem sbcAbsY (w : Addr) : Statement (.sbcAbsY w) := fun _ => ⟨_, _, rfl, rfl⟩
theorem sbcIndX (d : Byte) : Statement (.sbcIndX d) := fun _ => ⟨_, _, rfl, rfl⟩
theorem sbcIndY (d : Byte) : Statement (.sbcIndY d) := fun _ => ⟨_, _, rfl, rfl⟩
theorem andImm (v : Byte) : Statement (.andImm v) := fun _ => ⟨_, _, rfl, rfl⟩
theorem andZp (d : Byte) : Statement (.andZp d) := fun _ => ⟨_, _, rfl, rfl⟩
theorem andZpX (d : Byte) : Statement (.andZpX d) := fun _ => ⟨_, _, rfl, rfl⟩
theorem andAbs (w : Addr) : Statement (.andAbs w) := fun _ => ⟨_, _, rfl, rfl⟩
theorem andAbsX (w : Addr) : Statement (.andAbsX w) := fun _ => ⟨_, _, rfl, rfl⟩
theorem andAbsY (w : Addr) : Statement (.andAbsY w) := fun _ => ⟨_, _, rfl, rfl⟩
theorem andIndX (d : Byte) : Statement (.andIndX d) := fun _ => ⟨_, _, rfl, rfl⟩
theorem andIndY (d : Byte) : Statement (.andIndY d) := fun _ => ⟨_, _, rfl, rfl⟩
theorem oraImm (v : Byte) : Statement (.oraImm v) := fun _ => ⟨_, _, rfl, rfl⟩
theorem oraZp (d : Byte) : Statement (.oraZp d) := fun _ => ⟨_, _, rfl, rfl⟩
theorem oraZpX (d : Byte) : Statement (.oraZpX d) := fun _ => ⟨_, _, rfl, rfl⟩
theorem oraAbs (w : Addr) : Statement (.oraAbs w) := fun _ => ⟨_, _, rfl, rfl⟩
theorem oraAbsX (w : Addr) : Statement (.oraAbsX w) := fun _ => ⟨_, _, rfl, rfl⟩
theorem oraAbsY (w : Addr) : Statement (.oraAbsY w) := fun _ => ⟨_, _, rfl, rfl⟩
theorem oraIndX (d : Byte) : Statement (.oraIndX d) := fun _ => ⟨_, _, rfl, rfl⟩
theorem oraIndY (d : Byte) : Statement (.oraIndY d) := fun _ => ⟨_, _, rfl, rfl⟩
theorem eorImm (v : Byte) : Statement (.eorImm v) := fun _ => ⟨_, _, rfl, rfl⟩
theorem eorZp (d : Byte) : Statement (.eorZp d) := fun _ => ⟨_, _, rfl, rfl⟩
theorem eorZpX (d : Byte) : Statement (.eorZpX d) := fun _ => ⟨_, _, rfl, rfl⟩
theorem eorAbs (w : Addr) : Statement (.eorAbs w) := fun _ => ⟨_, _, rfl, rfl⟩
theorem eorAbsX (w : Addr) : Statement (.eorAbsX w) := fun _ => ⟨_, _, rfl, rfl⟩
theorem eorAbsY (w : Addr) : Statement (.eorAbsY w) := fun _ => ⟨_, _, rfl, rfl⟩
theorem eorIndX (d : Byte) : Statement (.eorIndX d) := fun _ => ⟨_, _, rfl, rfl⟩
theorem eorIndY (d : Byte) : Statement (.eorIndY d) := fun _ => ⟨_, _, rfl, rfl⟩
theorem cmpImm (v : Byte) : Statement (.cmpImm v) := fun _ => ⟨_, _, rfl, rfl⟩
theorem cmpZp (d : Byte) : Statement (.cmpZp d) := fun _ => ⟨_, _, rfl, rfl⟩
theorem cmpZpX (d : Byte) : Statement (.cmpZpX d) := fun _ => ⟨_, _, rfl, rfl⟩
theorem cmpAbs (w : Addr) : Statement (.cmpAbs w) := fun _ => ⟨_, _, rfl, rfl⟩
theorem cmpAbsX (w : Addr) : Statement (.cmpAbsX w) := fun _ => ⟨_, _, rfl, rfl⟩
theorem cmpAbsY (w : Addr) : Statement (.cmpAbsY w) := fun _ => ⟨_, _, rfl, rfl⟩
theorem cmpIndX (d : Byte) : Statement (.cmpIndX d) := fun _ => ⟨_, _, rfl, rfl⟩
theorem cmpIndY (d : Byte) : Statement (.cmpIndY d) := fun _ => ⟨_, _, rfl, rfl⟩
theorem cpxImm (v : Byte) : Statement (.cpxImm v) := fun _ => ⟨_, _, rfl, rfl⟩
theorem cpxZp (d : Byte) : Statement (.cpxZp d) := fun _ => ⟨_, _, rfl, rfl⟩
theorem cpxAbs (w : Addr) : Statement (.cpxAbs w) := fun _ => ⟨_, _, rfl, rfl⟩
theorem cpyImm (v : Byte) : Statement (.cpyImm v) := fun _ => ⟨_, _, rfl, rfl⟩
theorem cpyZp (d : Byte) : Statement (.cpyZp d) := fun _ => ⟨_, _, rfl, rfl⟩
theorem cpyAbs (w : Addr) : Statement (.cpyAbs w) := fun _ => ⟨_, _, rfl, rfl⟩
theorem bitZp (d : Byte) : Statement (.bitZp d) := fun _ => ⟨_, _, rfl, rfl⟩
theorem bitAbs (w : Addr) : Statement (.bitAbs w) := fun _ => ⟨_, _, rfl, rfl⟩
theorem aslAcc : Statement (.aslAcc) := fun _ => ⟨_, _, rfl, rfl⟩
theorem aslZp (d : Byte) : Statement (.aslZp d) := fun _ => ⟨_, _, rfl, rfl⟩
theorem aslZpX (d : Byte) : Statement (.aslZpX d) := fun _ => ⟨_, _, rfl, rfl⟩
theorem aslAbs (w : Addr) : Statement (.aslAbs w) := fun _ => ⟨_, _, rfl, rfl⟩
theorem aslAbsX (w : Addr) : Statement (.aslAbsX w) := fun _ => ⟨_, _, rfl, rfl⟩
theorem lsrAcc : Statement (.lsrAcc) := fun _ => ⟨_, _, rfl, rfl⟩
theorem lsrZp (d : Byte) : Statement (.lsrZp d) := fun _ => ⟨_, _, rfl, rfl⟩
theorem lsrZpX (d : Byte) : Statement (.lsrZpX d) := fun _ => ⟨_, _, rfl, rfl⟩
theorem lsrAbs (w : Addr) : Statement (.lsrAbs w) := fun _ => ⟨_, _, rfl, rfl⟩
theorem lsrAbsX (w : Addr) : Statement (.lsrAbsX w) := fun _ => ⟨_, _, rfl, rfl⟩
theorem rolAcc : Statement (.rolAcc) := fun _ => ⟨_, _, rfl, rfl⟩
theorem rolZp (d : Byte) : Statement (.rolZp d) := fun _ => ⟨_, _, rfl, rfl⟩
theorem rolZpX (d : Byte) : Statement (.rolZpX d) := fun _ => ⟨_, _, rfl, rfl⟩
theorem rolAbs (w : Addr) : Statement (.rolAbs w) := fun _ => ⟨_, _, rfl, rfl⟩
theorem rolAbsX (w : Addr) : Statement (.rolAbsX w) := fun _ => ⟨_, _, rfl, rfl⟩
theorem rorAcc : Statement (.rorAcc) := fun _ => ⟨_, _, rfl, rfl⟩
theorem rorZp (d : Byte) : Statement (.rorZp d) := fun _ => ⟨_, _, rfl, rfl⟩
theorem rorZpX (d : Byte) : Statement (.rorZpX d) := fun _ => ⟨_, _, rfl, rfl⟩
theorem rorAbs (w : Addr) : Statement (.rorAbs w) := fun _ => ⟨_, _, rfl, rfl⟩
theorem rorAbsX (w : Addr) : Statement (.rorAbsX w) := fun _ => ⟨_, _, rfl, rfl⟩
theorem incZp (d : Byte) : Statement (.incZp d) := fun _ => ⟨_, _, rfl, rfl⟩
theorem incZpX (d : Byte) : Statement (.incZpX d) := fun _ => ⟨_, _, rfl, rfl⟩
theorem incAbs (w : Addr) : Statement (.incAbs w) := fun _ => ⟨_, _, rfl, rfl⟩
theorem incAbsX (w : Addr) : Statement (.incAbsX w) := fun _ => ⟨_, _, rfl, rfl⟩
theorem decZp (d : Byte) : Statement (.decZp d) := fun _ => ⟨_, _, rfl, rfl⟩
theorem decZpX (d : Byte) : Statement (.decZpX d) := fun _ => ⟨_, _, rfl, rfl⟩
theorem decAbs (w : Addr) : Statement (.decAbs w) := fun _ => ⟨_, _, rfl, rfl⟩
theorem decAbsX (w : Addr) : Statement (.decAbsX w) := fun _ => ⟨_, _, rfl, rfl⟩
theorem inx : Statement (.inx) := fun _ => ⟨_, _, rfl, rfl⟩
theorem iny : Statement (.iny) := fun _ => ⟨_, _, rfl, rfl⟩
theorem dex : Statement (.dex) := fun _ => ⟨_, _, rfl, rfl⟩
theorem dey : Statement (.dey) := fun _ => ⟨_, _, rfl, rfl⟩
theorem jmpAbs (w : Addr) : Statement (.jmpAbs w) := fun _ => ⟨_, _, rfl, rfl⟩
theorem jmpInd (w : Addr) : Statement (.jmpInd w) := fun _ => ⟨_, _, rfl, rfl⟩
theorem jsr (w : Addr) : Statement (.jsr w) := fun _ => ⟨_, _, rfl, rfl⟩
theorem rts : Statement (.rts) := fun _ => ⟨_, _, rfl, rfl⟩
theorem bcc (d : Byte) : Statement (.bcc d) := fun _ => ⟨_, _, rfl, rfl⟩
theorem bcs (d : Byte) : Statement (.bcs d) := fun _ => ⟨_, _, rfl, rfl⟩
theorem beq (d : Byte) : Statement (.beq d) := fun _ => ⟨_, _, rfl, rfl⟩
theorem bne (d : Byte) : Statement (.bne d) := fun _ => ⟨_, _, rfl, rfl⟩
theorem bmi (d : Byte) : Statement (.bmi d) := fun _ => ⟨_, _, rfl, rfl⟩
theorem bpl (d : Byte) : Statement (.bpl d) := fun _ => ⟨_, _, rfl, rfl⟩
theorem bvc (d : Byte) : Statement (.bvc d) := fun _ => ⟨_, _, rfl, rfl⟩
theorem bvs (d : Byte) : Statement (.bvs d) := fun _ => ⟨_, _, rfl, rfl⟩
theorem brk : Statement (.brk) := fun _ => ⟨_, _, rfl, rfl⟩
theorem rti : Statement (.rti) := fun _ => ⟨_, _, rfl, rfl⟩
theorem nop : Statement (.nop) := fun _ => ⟨_, _, rfl, rfl⟩
theorem pha : Statement (.pha) := fun _ => ⟨_, _, rfl, rfl⟩
theorem pla : Statement (.pla) := fun _ => ⟨_, _, rfl, rfl⟩
theorem php : Statement (.php) := fun _ => ⟨_, _, rfl, rfl⟩
theorem plp : Statement (.plp) := fun _ => ⟨_, _, rfl, rfl⟩
theorem clc : Statement (.clc) := fun _ => ⟨_, _, rfl, rfl⟩
theorem sec : Statement (.sec) := fun _ => ⟨_, _, rfl, rfl⟩
theorem cli : Statement (.cli) := fun _ => ⟨_, _, rfl, rfl⟩
theorem sei : Statement (.sei) := fun _ => ⟨_, _, rfl, rfl⟩
theorem cld : Statement (.cld) := fun _ => ⟨_, _, rfl, rfl⟩
theorem sed : Statement (.sed) := fun _ => ⟨_, _, rfl, rfl⟩
theorem clv : Statement (.clv) := fun _ => ⟨_, _, rfl, rfl⟩
theorem unknown (op : Byte) : Statement (.unknown op) := fun h =>
  ⟨op, [], rfl, (by decide : ∀ b : Byte, Instr.wellFormed .ext (.unknown b) = true →
    0 = operandLength .ext b) op h⟩

end Sys2Proof.Laws.EncodedLength
end

