-- ==== Sys2Proof/Laws/Step.lean ====
section
/-! SUPPORT. What one step of the machine can do, said once; proofs about steps cite `step_cases` instead of unfolding the step. -/

namespace Sys2Proof.Laws

open Sys2Proof.Machine Sys2Proof.Safety

/-- RUN is on one side of Execute or on the other (10_state.md R18). -/
theorem outside_or_inside (s : State) : OutsideExecute s ∨ InsideExecute s := by
  unfold OutsideExecute InsideExecute
  cases s.run <;> simp

/-- Outside Execute the host acts. -/
theorem step_outside {s : State} (h : OutsideExecute s) : step s = .next (hostTurn s) := by
  rcases h with h | h <;> simp [step, h]

/-- Inside Execute a step tests the budget, then runs a slot. -/
theorem step_inside {s : State} (h : InsideExecute s) :
    step s = if s.cyc ≤ 0 then .next (endExecute s)
      else endSlot (exec (instrAt s) (enterSlot s)) := by
  rcases h with h | h | h <;> simp [step, h]

/-- Every way a step answers a next state. -/
theorem step_cases {s t : State} (h : step s = .next t) :
    (OutsideExecute s ∧ t = hostTurn s) ∨
    (InsideExecute s ∧ s.cyc ≤ 0 ∧ t = endExecute s) ∨
    (InsideExecute s ∧ 0 < s.cyc ∧ ∃ u, exec (instrAt s) (enterSlot s) = .next u ∧
      t = if u.run = .halted then u else u.setRun .fetching) := by
  rcases outside_or_inside s with ho | hi
  · rw [step_outside ho] at h
    cases h
    exact .inl ⟨ho, rfl⟩
  · rw [step_inside hi] at h
    split at h
    · cases h
      exact .inr (.inl ⟨hi, ‹_›, rfl⟩)
    · refine .inr (.inr ⟨hi, by omega, ?_⟩)
      cases he : exec (instrAt s) (enterSlot s) with
      | next u =>
        rw [he] at h
        cases h
        exact ⟨u, rfl, rfl⟩
      | fault f => cases f
      | refused r =>
        rw [he] at h
        cases h

/-- The host's turn: its next operation, or nothing. -/
theorem hostTurn_cons {s : State} {op : HostOp} {rest : List HostOp} (h : s.script = op :: rest) :
    hostTurn s = hostOp op { s with script := rest } := by
  simp [hostTurn, h]

end Sys2Proof.Laws
end

