-- ==== Sys2Proof/Tests/Slice0.lean ====
section
/-! SUPPORT. The model's own tests: ill-formed terms, decoded words, single slots from the tables of 95_test_vectors.md, and, for every statement with hypotheses, a concrete state that meets them. -/

namespace Sys2Proof.Tests

open Sys2Proof.Machine Sys2Proof.Safety

/-! ### Well-formedness: each check refuses something -/

theorem test_ext_instruction_is_not_in_base : Instr.wellFormed .base .tax = false := by decide
theorem test_ext_mode_is_not_in_base : Instr.wellFormed .base (.ldaAbs 0x1234#16) = false := by decide
theorem test_base_opcode_is_not_unknown_in_base :
    Instr.wellFormed .base (.unknown 0xA9#8) = false := by decide
theorem test_table_opcode_is_not_unknown_in_ext :
    Instr.wellFormed .ext (.unknown 0xEA#8) = false := by decide
theorem test_undocumented_opcode_is_unknown :
    Instr.wellFormed .ext (.unknown 0x02#8) = true ∧
      Instr.wellFormed .base (.unknown 0xEA#8) = true := by decide

/-! ### Decoding: words written out from the opcode map -/

/-- Every word decodes to the instruction beside it. -/
def decodesAll (rows : List (Nat × Nat × Instr)) : Bool :=
  rows.all fun r => decodeTableWord r.1 r.2.1 == some r.2.2

/-- Words of the opcode map (30_encoding.md R46): the opcode byte, then the operand, low byte first. -/
theorem test_decode_load : decodesAll [
    (16, 0x9CA1, .ldaIndX 0x9C#8), (16, 0x9CA5, .ldaZp 0x9C#8), (16, 0x9CA9, .ldaImm 0x9C#8),
    (24, 0x8E37AD, .ldaAbs 0x8E37#16), (16, 0x9CB1, .ldaIndY 0x9C#8), (16, 0x9CB5, .ldaZpX 0x9C#8),
    (24, 0x8E37B9, .ldaAbsY 0x8E37#16), (24, 0x8E37BD, .ldaAbsX 0x8E37#16), (16, 0x9CA2, .ldxImm 0x9C#8),
    (16, 0x9CA6, .ldxZp 0x9C#8), (24, 0x8E37AE, .ldxAbs 0x8E37#16), (16, 0x9CB6, .ldxZpY 0x9C#8),
    (24, 0x8E37BE, .ldxAbsY 0x8E37#16), (16, 0x9CA0, .ldyImm 0x9C#8), (16, 0x9CA4, .ldyZp 0x9C#8),
    (24, 0x8E37AC, .ldyAbs 0x8E37#16), (16, 0x9CB4, .ldyZpX 0x9C#8), (24, 0x8E37BC, .ldyAbsX 0x8E37#16)] = true := by decide

/-- Words of the opcode map (30_encoding.md R46): the opcode byte, then the operand, low byte first. -/
theorem test_decode_store : decodesAll [
    (16, 0x9C81, .staIndX 0x9C#8), (16, 0x9C85, .staZp 0x9C#8), (24, 0x8E378D, .staAbs 0x8E37#16),
    (16, 0x9C91, .staIndY 0x9C#8), (16, 0x9C95, .staZpX 0x9C#8), (24, 0x8E3799, .staAbsY 0x8E37#16),
    (24, 0x8E379D, .staAbsX 0x8E37#16), (16, 0x9C86, .stxZp 0x9C#8), (24, 0x8E378E, .stxAbs 0x8E37#16),
    (16, 0x9C96, .stxZpY 0x9C#8), (16, 0x9C84, .styZp 0x9C#8), (24, 0x8E378C, .styAbs 0x8E37#16),
    (16, 0x9C94, .styZpX 0x9C#8)] = true := by decide

/-- Words of the opcode map (30_encoding.md R46): the opcode byte, then the operand, low byte first. -/
theorem test_decode_transfer : decodesAll [
    (8, 0xAA, .tax), (8, 0xA8, .tay), (8, 0x8A, .txa),
    (8, 0x98, .tya), (8, 0xBA, .tsx), (8, 0x9A, .txs)] = true := by decide

/-- Words of the opcode map (30_encoding.md R46): the opcode byte, then the operand, low byte first. -/
theorem test_decode_add_subtract : decodesAll [
    (16, 0x9C61, .adcIndX 0x9C#8), (16, 0x9C65, .adcZp 0x9C#8), (16, 0x9C69, .adcImm 0x9C#8),
    (24, 0x8E376D, .adcAbs 0x8E37#16), (16, 0x9C71, .adcIndY 0x9C#8), (16, 0x9C75, .adcZpX 0x9C#8),
    (24, 0x8E3779, .adcAbsY 0x8E37#16), (24, 0x8E377D, .adcAbsX 0x8E37#16), (16, 0x9CE1, .sbcIndX 0x9C#8),
    (16, 0x9CE5, .sbcZp 0x9C#8), (16, 0x9CE9, .sbcImm 0x9C#8), (24, 0x8E37ED, .sbcAbs 0x8E37#16),
    (16, 0x9CF1, .sbcIndY 0x9C#8), (16, 0x9CF5, .sbcZpX 0x9C#8), (24, 0x8E37F9, .sbcAbsY 0x8E37#16),
    (24, 0x8E37FD, .sbcAbsX 0x8E37#16)] = true := by decide

/-- Words of the opcode map (30_encoding.md R46): the opcode byte, then the operand, low byte first. -/
theorem test_decode_logic : decodesAll [
    (16, 0x9C21, .andIndX 0x9C#8), (16, 0x9C25, .andZp 0x9C#8), (16, 0x9C29, .andImm 0x9C#8),
    (24, 0x8E372D, .andAbs 0x8E37#16), (16, 0x9C31, .andIndY 0x9C#8), (16, 0x9C35, .andZpX 0x9C#8),
    (24, 0x8E3739, .andAbsY 0x8E37#16), (24, 0x8E373D, .andAbsX 0x8E37#16), (16, 0x9C01, .oraIndX 0x9C#8),
    (16, 0x9C05, .oraZp 0x9C#8), (16, 0x9C09, .oraImm 0x9C#8), (24, 0x8E370D, .oraAbs 0x8E37#16),
    (16, 0x9C11, .oraIndY 0x9C#8), (16, 0x9C15, .oraZpX 0x9C#8), (24, 0x8E3719, .oraAbsY 0x8E37#16),
    (24, 0x8E371D, .oraAbsX 0x8E37#16), (16, 0x9C41, .eorIndX 0x9C#8), (16, 0x9C45, .eorZp 0x9C#8),
    (16, 0x9C49, .eorImm 0x9C#8), (24, 0x8E374D, .eorAbs 0x8E37#16), (16, 0x9C51, .eorIndY 0x9C#8),
    (16, 0x9C55, .eorZpX 0x9C#8), (24, 0x8E3759, .eorAbsY 0x8E37#16), (24, 0x8E375D, .eorAbsX 0x8E37#16)] = true := by decide

/-- Words of the opcode map (30_encoding.md R46): the opcode byte, then the operand, low byte first. -/
theorem test_decode_compare_bit : decodesAll [
    (16, 0x9CC1, .cmpIndX 0x9C#8), (16, 0x9CC5, .cmpZp 0x9C#8), (16, 0x9CC9, .cmpImm 0x9C#8),
    (24, 0x8E37CD, .cmpAbs 0x8E37#16), (16, 0x9CD1, .cmpIndY 0x9C#8), (16, 0x9CD5, .cmpZpX 0x9C#8),
    (24, 0x8E37D9, .cmpAbsY 0x8E37#16), (24, 0x8E37DD, .cmpAbsX 0x8E37#16), (16, 0x9CE0, .cpxImm 0x9C#8),
    (16, 0x9CE4, .cpxZp 0x9C#8), (24, 0x8E37EC, .cpxAbs 0x8E37#16), (16, 0x9CC0, .cpyImm 0x9C#8),
    (16, 0x9CC4, .cpyZp 0x9C#8), (24, 0x8E37CC, .cpyAbs 0x8E37#16), (16, 0x9C24, .bitZp 0x9C#8),
    (24, 0x8E372C, .bitAbs 0x8E37#16)] = true := by decide

/-- Words of the opcode map (30_encoding.md R46): the opcode byte, then the operand, low byte first. -/
theorem test_decode_shift : decodesAll [
    (16, 0x9C06, .aslZp 0x9C#8), (8, 0x0A, .aslAcc), (24, 0x8E370E, .aslAbs 0x8E37#16),
    (16, 0x9C16, .aslZpX 0x9C#8), (24, 0x8E371E, .aslAbsX 0x8E37#16), (16, 0x9C46, .lsrZp 0x9C#8),
    (8, 0x4A, .lsrAcc), (24, 0x8E374E, .lsrAbs 0x8E37#16), (16, 0x9C56, .lsrZpX 0x9C#8),
    (24, 0x8E375E, .lsrAbsX 0x8E37#16), (16, 0x9C26, .rolZp 0x9C#8), (8, 0x2A, .rolAcc),
    (24, 0x8E372E, .rolAbs 0x8E37#16), (16, 0x9C36, .rolZpX 0x9C#8), (24, 0x8E373E, .rolAbsX 0x8E37#16),
    (16, 0x9C66, .rorZp 0x9C#8), (8, 0x6A, .rorAcc), (24, 0x8E376E, .rorAbs 0x8E37#16),
    (16, 0x9C76, .rorZpX 0x9C#8), (24, 0x8E377E, .rorAbsX 0x8E37#16)] = true := by decide

/-- Words of the opcode map (30_encoding.md R46): the opcode byte, then the operand, low byte first. -/
theorem test_decode_step : decodesAll [
    (16, 0x9CE6, .incZp 0x9C#8), (24, 0x8E37EE, .incAbs 0x8E37#16), (16, 0x9CF6, .incZpX 0x9C#8),
    (24, 0x8E37FE, .incAbsX 0x8E37#16), (16, 0x9CC6, .decZp 0x9C#8), (24, 0x8E37CE, .decAbs 0x8E37#16),
    (16, 0x9CD6, .decZpX 0x9C#8), (24, 0x8E37DE, .decAbsX 0x8E37#16), (8, 0xE8, .inx),
    (8, 0xC8, .iny), (8, 0xCA, .dex), (8, 0x88, .dey)] = true := by decide

/-- Words of the opcode map (30_encoding.md R46): the opcode byte, then the operand, low byte first. -/
theorem test_decode_control : decodesAll [
    (24, 0x8E374C, .jmpAbs 0x8E37#16), (24, 0x8E376C, .jmpInd 0x8E37#16), (24, 0x8E3720, .jsr 0x8E37#16),
    (8, 0x60, .rts), (16, 0x9C90, .bcc 0x9C#8), (16, 0x9CB0, .bcs 0x9C#8),
    (16, 0x9CF0, .beq 0x9C#8), (16, 0x9CD0, .bne 0x9C#8), (16, 0x9C30, .bmi 0x9C#8),
    (16, 0x9C10, .bpl 0x9C#8), (16, 0x9C50, .bvc 0x9C#8), (16, 0x9C70, .bvs 0x9C#8),
    (8, 0x00, .brk), (8, 0x40, .rti), (8, 0xEA, .nop)] = true := by decide

/-- Words of the opcode map (30_encoding.md R46): the opcode byte, then the operand, low byte first. -/
theorem test_decode_stack_flags : decodesAll [
    (8, 0x48, .pha), (8, 0x68, .pla), (8, 0x08, .php),
    (8, 0x28, .plp), (8, 0x18, .clc), (8, 0x38, .sec),
    (8, 0x58, .cli), (8, 0x78, .sei), (8, 0xD8, .cld),
    (8, 0xF8, .sed), (8, 0xB8, .clv)] = true := by decide

/-- Bytes without an entry (30_encoding.md R45, R47); the table's fallback row has no opcode byte of
its own. -/
theorem test_decode_unknown :
    decodesAll [(8, 0x02, .unknown 0x02#8), (8, 0xFF, .unknown 0xFF#8)] = true ∧
      decodeBytes .base 0xEA 0 0 = .unknown 0xEA#8 ∧
      decodeBytes .base 0x00 0 0 = .unknown 0x00#8 := by decide

theorem test_decode_no_bytes : decodeTableWord 0 0 = none ∧ decodeTableWord 32 0 = none := by decide

theorem test_decode_truncated :
    decode .ext [0x20#8, 0x42#8] = .error (.truncated 0x20#8) ∧
      decode .ext [] = .error .empty := ⟨rfl, rfl⟩

/-! ### One slot: the vectors of 95_test_vectors.md, part 2 -/

/-- Bytes at consecutive addresses. -/
def placed : Addr → List Byte → State → State
  | _, [], s => s
  | pc, b :: rest, s => placed (pc + 1) rest (memWrite s pc b)

/-- The default start of a slot vector: inside Execute after Reset, with the given bytes at `pc`. -/
def startAt (t : Table) (pc : Addr) (bytes : List Byte) : State :=
  placed pc bytes { State.reset with
    cfg := { Config.specDefault with table := t }
    pc := pc, run := .fetching, cyc := 100, budget := 100 }

/-- The default start at 0x0200 with the full table. -/
def start (bytes : List Byte) : State := startAt .ext 0x0200 bytes

/-- A byte of memory set. -/
def cell (s : State) (addr : Addr) (v : Byte) : State := memWrite s addr v

/-- What is seen of the state after one step. -/
def after {α : Type} (s : State) (look : State → α) : Option α :=
  match step s with
  | .next t => some (look t)
  | _ => none

/-- N, V, Z, C. -/
def nvzc (s : State) : Bool × Bool × Bool × Bool := (s.p.n, s.p.v, s.p.z, s.p.c)

theorem test_lda_imm :
    after (startAt .base 0xFFFF [0xA9, 0x80]) (fun t => (t.pc, t.a, t.p.n, t.p.z, t.cyc)) =
      some (0x0001, 0x80, true, false, 98) := by decide

theorem test_lda_zpX_wraps :
    after { cell (cell (startAt .base 0x0200 [0xB5, 0x80]) 0x007F 0x33) 0x017F 0x44 with x := 0xFF }
      (fun t => (t.pc, t.a, t.cyc)) = some (0x0202, 0x33, 96) := by decide

theorem test_lda_absX_page_cross :
    after { cell (start [0xBD, 0xFF, 0xFF]) 0x0000 0x03 with x := 0x01 }
      (fun t => (t.pc, t.a, t.cyc)) = some (0x0203, 0x03, 95) := by decide

theorem test_lda_indX_pointer_wraps :
    after (cell (cell (cell (start [0xA1, 0xFF]) 0x0000 0x12) 0x00FF 0x34) 0x1234 0x5A)
      (fun t => (t.a, t.cyc)) = some (0x5A, 94) := by decide

theorem test_lda_indY_page_cross :
    after { cell (cell (cell (start [0xB1, 0x40]) 0x40 0xF8) 0x41 0x30) 0x3108 0x09 with y := 0x10 }
      (fun t => (t.a, t.cyc)) = some (0x09, 94) := by decide

theorem test_ldx_zpY_wraps :
    after { cell (start [0xB6, 0x10]) 0x0008 0x81 with y := 0xF8 } (fun t => (t.x, t.p.n, t.cyc)) =
      some (0x81, true, 96) := by decide

theorem test_ldy_zpX :
    after { cell (start [0xB4, 0x10]) 0x0011 0x80 with x := 0x01 } (fun t => (t.y, t.p.n)) =
      some (0x80, true) := by decide

theorem test_sta_absX_without_cross_costs_5 :
    after { start [0x9D, 0x00, 0x12] with a := 0x01, x := 0x01 }
      (fun t => (memRead t 0x1201, t.cyc)) = some (0x01, 95) := by decide

theorem test_sta_indY_without_cross_costs_6 :
    after { cell (cell (start [0x91, 0x40]) 0x40 0x00) 0x41 0x20 with a := 0x05, y := 0x01 }
      (fun t => (memRead t 0x2001, t.cyc)) = some (0x05, 94) := by decide

theorem test_stx_zpY_wraps :
    after { start [0x96, 0xFF] with x := 0x07, y := 0x02 } (fun t => memRead t 0x0001) =
      some 0x07 := by decide

theorem test_sty_zpX_wraps :
    after { start [0x94, 0x10] with x := 0xFF, y := 0x79 } (fun t => memRead t 0x000F) =
      some 0x79 := by decide

theorem test_txs_sets_no_flag :
    after { start [0x9A] with x := 0x00, sp := 0x10 } (fun t => (t.sp, t.p.z, t.cyc)) =
      some (0x00, false, 98) := by decide

theorem test_tsx_sets_flags :
    after { start [0xBA] with sp := 0x80 } (fun t => (t.x, t.p.n)) = some (0x80, true) := by decide

theorem test_adc_overflow :
    after { start [0x69, 0x90] with a := 0xD0 } (fun t => (t.a, nvzc t)) =
      some (0x60, false, true, false, true) := by decide

theorem test_adc_ignores_decimal :
    after { start [0x69, 0x09] with a := 0x09, p := { Flags.clear with d := true } }
      (fun t => (t.a, nvzc t)) = some (0x12, false, false, false, false) := by decide

theorem test_sbc_borrow_in :
    after { start [0xE9, 0x05] with a := 0x05 } (fun t => (t.a, nvzc t)) =
      some (0xFF, true, false, false, false) := by decide

theorem test_sbc_overflow :
    after { start [0xE9, 0xB0] with a := 0x50, p := { Flags.clear with c := true } }
      (fun t => (t.a, nvzc t)) = some (0xA0, true, true, false, false) := by decide

theorem test_and : after { start [0x29, 0x0F] with a := 0xF0 } (fun t => (t.a, t.p.z)) =
    some (0x00, true) := by decide

theorem test_ora : after { start [0x09, 0x80] with a := 0x01 } (fun t => (t.a, t.p.n)) =
    some (0x81, true) := by decide

theorem test_eor : after { start [0x49, 0xFF] with a := 0x0F } (fun t => (t.a, t.p.n)) =
    some (0xF0, true) := by decide

theorem test_cmp_is_unsigned :
    after { start [0xC9, 0x01] with a := 0x80 } (fun t => (t.a, nvzc t)) =
      some (0x80, false, false, false, true) := by decide

theorem test_cpx : after { cell (start [0xE4, 0x10]) 0x10 0x03 with x := 0x02 } nvzc =
    some (true, false, false, false) := by decide

theorem test_cpy : after { start [0xC0, 0x01] with y := 0x00 } nvzc =
    some (true, false, false, false) := by decide

theorem test_bit : after { cell (start [0x24, 0x10]) 0x10 0xC0 with a := 0x01 } nvzc =
    some (true, true, true, false) := by decide

theorem test_asl_absX_costs_7 :
    after { cell (start [0x1E, 0x00, 0x12]) 0x1201 0xC0 with x := 0x01 }
      (fun t => (memRead t 0x1201, t.p.c, t.cyc)) = some (0x80, true, 93) := by decide

theorem test_lsr_acc : after { start [0x4A] with a := 0x01 } (fun t => (t.a, nvzc t)) =
    some (0x00, false, false, true, true) := by decide

theorem test_rol_acc :
    after { start [0x2A] with a := 0x40, p := { Flags.clear with c := true } }
      (fun t => (t.a, nvzc t)) = some (0x81, true, false, false, false) := by decide

theorem test_ror_zpX :
    after { cell (start [0x76, 0x10]) 0x11 0x02 with x := 0x01, p := { Flags.clear with c := true } }
      (fun t => (memRead t 0x0011, nvzc t, t.cyc)) =
      some (0x81, (true, false, false, false), 94) := by decide

theorem test_inc_keeps_carry :
    after { cell (start [0xE6, 0x10]) 0x10 0xFF with p := { Flags.clear with c := true } }
      (fun t => (memRead t 0x0010, nvzc t)) = some (0x00, false, false, true, true) := by decide

theorem test_dec : after (start [0xC6, 0x10]) (fun t => (memRead t 0x0010, t.p.n, t.cyc)) =
    some (0xFF, true, 95) := by decide

theorem test_dex : after (start [0xCA]) (fun t => (t.x, t.p.n)) = some (0xFF, true) := by decide

theorem test_jmp_indirect_stays_in_page :
    after (cell (cell (cell (start [0x6C, 0xFF, 0x12]) 0x1200 0x56) 0x12FF 0x78) 0x1300 0x99)
      (fun t => (t.pc, t.cyc)) = some (0x5678, 95) := by decide

theorem test_jsr_after_reset :
    after (startAt .base 0xFFFC [0x20, 0x42, 0xAA])
      (fun t => (t.pc, t.sp, memRead t 0x0100, memRead t 0x0101, t.cyc)) =
      some (0xAA42, 0x02, 0xFE, 0xFF, 94) := by decide

theorem test_jsr_wraps_in_page_1 :
    after { start [0x20, 0x34, 0x12] with sp := 0xFF }
      (fun t => (t.sp, memRead t 0x01FF, memRead t 0x0100, memRead t 0x0200)) =
      some (0x01, 0x02, 0x02, 0x20) := by decide

theorem test_rts :
    after { cell (cell (start [0x60]) 0x0100 0xFE) 0x0101 0xFF with sp := 0x02 }
      (fun t => (t.pc, t.sp, t.cyc)) = some (0xFFFF, 0x00, 94) := by decide

theorem test_branch_other_page :
    after { startAt .ext 0x02FD [0xF0, 0x01] with p := { Flags.clear with z := true } }
      (fun t => (t.pc, t.cyc)) = some (0x0300, 96) := by decide

theorem test_branch_backward :
    after (start [0x50, 0x80]) (fun t => (t.pc, t.cyc)) = some (0x0182, 96) := by decide

theorem test_branch_not_taken :
    after (start [0xB0, 0x02]) (fun t => (t.pc, t.cyc)) = some (0x0202, 98) := by decide

theorem test_brk :
    after { cell (cell (start [0x00, 0xEA]) 0xFFFE 0x34) 0xFFFF 0x12 with
        sp := 0xFE, p := { Flags.clear with n := true, c := true } }
      (fun t => (t.pc, t.sp, t.p.i, t.p.b, memRead t 0x0100, t.cyc)) =
      some (0x1234, 0x01, true, false, 0xB1, 93) := by decide

theorem test_rti :
    after { cell (cell (cell (start [0x40]) 0x0100 0x34) 0x0101 0x12) 0x0102 0xFF with sp := 0x03 }
      (fun t => (t.pc, t.sp, t.p)) =
      some (0x1234, 0x00,
        { n := true, v := true, b := false, d := true, i := true, z := true, c := true }) := by decide

theorem test_nop : after (start [0xEA]) (fun t => (t.pc, t.cyc)) = some (0x0201, 98) := by decide

theorem test_pha_at_the_top :
    after { start [0x48] with a := 0x43, sp := 0xFF } (fun t => (t.sp, memRead t 0x01FF)) =
      some (0x00, 0x43) := by decide

theorem test_pla_wraps :
    after (cell (start [0x68]) 0x01FF 0x80) (fun t => (t.a, t.sp, t.p.n, t.cyc)) =
      some (0x80, 0xFF, true, 96) := by decide

theorem test_php : after { start [0x08] with p := { Flags.clear with n := true, c := true } }
    (fun t => (memRead t 0x0100, t.p.b)) = some (0xB1, false) := by decide

theorem test_plp_keeps_b :
    after { start [0x28] with sp := 0x01, p := { Flags.clear with b := true, n := true } }
      (fun t => (t.p, t.sp)) = some ({ Flags.clear with b := true }, 0x00) := by decide

theorem test_sei : after (start [0x78]) (fun t => t.p) = some { Flags.clear with i := true } := by
  decide

theorem test_clv : after { start [0xB8] with p := { Flags.clear with v := true } } (fun t => t.p) =
    some Flags.clear := by decide

theorem test_unknown :
    after (startAt .base 0xFFFF [0xEA]) (fun t => (t.pc, t.diag, t.cyc, t.run)) =
      some (0x0000, [0xEA], 99, .fetching) := by decide

theorem test_unknown_fatal :
    after { start [0x02] with cfg := { Config.extended with unknownPolicy := .fatal } }
      (fun t => (t.diag, t.cyc, t.run)) = some ([0x02], 99, .halted) := by decide

theorem test_first_step_after_withFetchWord :
    after (State.reset.withFetchWord 24 0x123420) (fun t => (t.pc, t.sp)) =
      some (0x1234, 0x02) := by decide

theorem test_withFetchWord_fetches_the_word :
    instrAt (State.reset.withFetchWord 16 0x9CA9) = .ldaImm 0x9C := by decide

/-! ### The host -/

theorem test_execute_of_nothing :
    after { State.reset with script := [.execute 0] } (fun t => (t.pc, t.run, t.returned)) =
      some (0xFFFC, .halted, 0) := by decide

/-- RESET_PC_MODE = vector, RUN = Idle, the word at 0xFFFC is 0x8000, Execute(budget) to come. -/
def vectorWaiting (budget : Int) : State :=
  { cell State.reset 0xFFFD 0x80 with
      cfg := { Config.extended with resetPcMode := .vector }, script := [.execute budget] }

theorem test_execute_in_vector_mode :
    after (vectorWaiting 7)
      (fun t => (t.pc, t.run, t.cyc)) = some (0x8000, .fetching, 7) := by decide

/-- The model's reading (log 11), not the spec's words: R169's load comes before the test of the budget. -/
theorem test_execute_of_nothing_in_vector_mode :
    after (vectorWaiting 0) (fun t => (t.pc, t.run, t.returned)) = some (0x8000, .halted, 0) := by
  decide

/-! ### Witnesses: a state that meets the hypotheses of each statement -/

/-- Outside Execute with one operation of the host to come. -/
def waiting (op : HostOp) : State := { State.reset with script := [op] }

/-- The same after a run. -/
def waitingHalted (op : HostOp) : State := { State.reset with script := [op], run := .halted }

theorem witness_ResetStateHasSpecifiedValues :
    (State.reset = State.reset ∨ State.reset = hostReset State.reset) ∧
      (hostReset (start [0xEA]) = State.reset ∨
        hostReset (start [0xEA]) = hostReset (start [0xEA])) :=
  ⟨.inl rfl, .inr rfl⟩

theorem witness_HostResetFromAnyState :
    OutsideExecute (waitingHalted .reset) ∧ (waitingHalted .reset).script = .reset :: [] :=
  ⟨.inr rfl, rfl⟩

theorem witness_ExecuteBegins :
    OutsideExecute (waiting (.execute 1)) ∧ (waiting (.execute 1)).script = .execute 1 :: [] :=
  ⟨.inl rfl, rfl⟩

theorem witness_ExecuteBegins_without_budget :
    OutsideExecute (waitingHalted (.execute 0)) ∧
      (waitingHalted (.execute 0)).script = .execute 0 :: [] := ⟨.inr rfl, rfl⟩

/-- Where the load of PC in vector mode meets a budget that is not positive (log 11). -/
theorem witness_ExecuteBegins_vector_without_budget :
    OutsideExecute (vectorWaiting 0) ∧ (vectorWaiting 0).script = .execute 0 :: [] ∧
      (vectorWaiting 0).cfg.resetPcMode = .vector ∧ (vectorWaiting 0).run = .idle :=
  ⟨.inl rfl, rfl, rfl, rfl⟩

theorem witness_PokeWritesOneCell :
    OutsideExecute (waiting (.poke 0xFFFF 0x12)) ∧
      (waiting (.poke 0xFFFF 0x12)).script = .poke 0xFFFF 0x12 :: [] ∧
      (waiting (.poke 0xFFFF 0x12)).mem.wf = true ∧ (0x0000 : Addr) ≠ 0xFFFF :=
  ⟨.inl rfl, rfl, rfl, by decide⟩

theorem witness_HostActsOnlyOutsideExecute :
    (OutsideExecute State.reset ∧ State.reset.script = []) ∧
      ∃ t, InsideExecute (start [0xEA]) ∧ step (start [0xEA]) = .next t :=
  ⟨⟨.inl rfl, rfl⟩, _, .inl rfl, rfl⟩

theorem witness_BudgetExhaustionEndsExecute :
    InsideExecute { start [0xEA] with cyc := 0 } ∧ ({ start [0xEA] with cyc := 0 } : State).cyc ≤ 0 :=
  ⟨.inl rfl, le_refl _⟩

theorem witness_StepRunsDecodedInstruction :
    InsideExecute (start [0xEA]) ∧ 0 < (start [0xEA]).cyc ∧
      decode (start [0xEA]).cfg.table [0xEA, 0x00, 0x00] = .ok (.nop, [0x00, 0x00]) ∧
      (memRead (start [0xEA]) (start [0xEA]).pc = 0xEA ∧
        memRead (start [0xEA]) ((start [0xEA]).pc + 1) = 0x00 ∧
        memRead (start [0xEA]) ((start [0xEA]).pc + 2) = 0x00) ∧
      ∃ t, exec .nop { start [0xEA] with pc := 0x0201, cyc := 99, run := .executing } = .next t :=
  ⟨.inl rfl, by decide, rfl, by decide, _, rfl⟩

/-- STACK_CHECK = on with the stack pointer at its last slot. -/
def checked (bytes : List Byte) : State :=
  { start bytes with cfg := { Config.extended with stackCheck := .on }, sp := 0xFF }

theorem witness_StepRunsDecodedInstruction_refused :
    InsideExecute (checked [0x48]) ∧ 0 < (checked [0x48]).cyc ∧
      instrAt (checked [0x48]) = .pha ∧
      exec .pha (enterSlot (checked [0x48])) = .refused .stackWrap :=
  ⟨.inl rfl, by decide, by decide, rfl⟩

theorem witness_UnknownOpcodeSlot :
    InsideExecute (start [0x02]) ∧ 0 < (start [0x02]).cyc ∧
      NoEntry (start [0x02]).cfg.table (memRead (start [0x02]) (start [0x02]).pc) :=
  ⟨.inl rfl, by decide, .inr ⟨rfl, by decide⟩⟩

theorem witness_UnknownOpcodeSlot_base :
    NoEntry .base 0x00 ∧ ¬NoEntry .base 0x20 ∧ ¬NoEntry .ext 0x00 := by
  refine ⟨.inl ⟨rfl, by decide⟩, ?_, ?_⟩
  · rintro (⟨-, h⟩ | ⟨h, -⟩)
    · exact h (by decide)
    · cases h
  · rintro (⟨h, -⟩ | ⟨-, h⟩)
    · cases h
    · exact absurd h (by decide)

theorem witness_BudgetOfOneRunsOneSlot :
    ∃ t, InsideExecute { start [0xEA] with cyc := 1 } ∧
      step { start [0xEA] with cyc := 1 } = .next t := ⟨_, .inl rfl, rfl⟩

theorem witness_EncodedInstructionDecodesBack :
    Instr.wellFormed .base (.jsr 0xFFFF) = true ∧ Instr.wellFormed .ext (.rorAbsX 0xFFFF) = true ∧
      Instr.wellFormed .ext (.unknown 0xFF) = true := by decide

theorem witness_DecodedInstructionEncodesBack :
    decode .ext [0x7E, 0xFF, 0x12, 0x00] = .ok (.rorAbsX 0x12FF, [0x00]) := rfl

theorem witness_OpcodesWithoutEntry :
    decodeBytes .base 0xA9 0xFF 0x00 = .ldaImm 0xFF ∧ ∀ b, Instr.ldaImm 0xFF ≠ .unknown b :=
  ⟨by decide, fun _ h => by cases h⟩

theorem witness_FetchReturnsDecodedOperand :
    encode (instrAt (start [0xA9, 0x05])) = [0xA9, 0x05] ∧
      encode (instrAt (start [0x20, 0x42, 0xAA])) = [0x20, 0x42, 0xAA] := by decide

/-- The invariant holds right after reset. -/
theorem reset_inv : Inv State.reset :=
  ⟨rfl, .inl rfl, ⟨fun h => absurd h (by decide), by decide, fun _ => rfl, (by intro h; cases h),
    by intro h; cases h⟩⟩

/-- A state inside Execute that meets the invariant. -/
theorem start_inv : Inv (start [0x20, 0x42, 0xAA]) :=
  ⟨by decide, .inr (.inl rfl), ⟨fun _ => by decide, by decide, fun h => absurd h (by decide),
    fun _ => by decide, by intro h; cases h⟩⟩

theorem witness_EveryStepKeepsInvariant :
    ∃ t, Inv (start [0x20, 0x42, 0xAA]) ∧ step (start [0x20, 0x42, 0xAA]) = .next t :=
  ⟨_, start_inv, rfl⟩

theorem witness_EveryStepKeepsBaseRegistersZero :
    ∃ t, (startAt .base 0x0200 [0xA9, 0x80]).cfg.table = .base ∧
      BaseQuiet (startAt .base 0x0200 [0xA9, 0x80]) ∧
      step (startAt .base 0x0200 [0xA9, 0x80]) = .next t :=
  ⟨_, rfl, fun _ => ⟨rfl, rfl, rfl, rfl, rfl, rfl, rfl⟩, rfl⟩

/-- For the statements whose only hypothesis is that a step answers a next state. -/
theorem witness_step_answers_next :
    (∃ t, step (start [0x00]) = .next t) ∧ (start [0x00]).p.b = false ∧
      ∃ t, step (waiting .reset) = .next t := ⟨⟨_, rfl⟩, rfl, _, rfl⟩

/-- For the statements whose only hypothesis is that `exec` answers a next state: a load, a store, a
read-modify-write, a push, a pull, an unknown opcode. -/
theorem witness_exec_answers_next :
    (∃ t, exec (.ldaAbsX 0x12FF) (start []) = .next t) ∧
      (∃ t, exec (.staZp 0x10) (start []) = .next t) ∧
      (∃ t, exec (.incAbs 0xFFFF) (start []) = .next t) ∧
      (∃ t, exec .brk (start []) = .next t) ∧ (∃ t, exec .rti (start []) = .next t) ∧
      ∃ t, exec (.unknown 0x02) (start []) = .next t :=
  ⟨⟨_, rfl⟩, ⟨_, rfl⟩, ⟨_, rfl⟩, ⟨_, rfl⟩, ⟨_, rfl⟩, _, rfl⟩

theorem witness_frames :
    writesReg (.ldaImm 0x01) .x = false ∧ writesReg .pha .a = false ∧
      writesFlag (.adcImm 0x01) .i = false ∧ writesFlag (.incZp 0x10) .c = false ∧
      (0x0000 : Addr) ∉ storedAddrs .brk (start []) ∧
      (0x0011 : Addr) ∉ storedAddrs (.staZp 0x10) (start []) ∧ 0 < pushes .brk ∧ 0 < pulls .rti := by
  decide

theorem witness_ReturnedCyclesAreTheSlotCosts :
    ∃ t, InsideExecute (start [0xEA]) ∧ 0 < (start [0xEA]).cyc ∧ step (start [0xEA]) = .next t :=
  ⟨_, .inl rfl, by decide, rfl⟩

theorem witness_CycleBudgetIsInvisible :
    (∃ t, exec .nop (start []) = .next t) ∧ exec .pha (checked []) = .refused .stackWrap :=
  ⟨⟨_, rfl⟩, rfl⟩

/-- No wrap: STACK_CHECK off, or the last push that fits. -/
theorem witness_not_StackRefused :
    ¬StackRefused .pha (start []) ∧ ¬StackRefused .pha { checked [] with sp := 0xFE } := by
  refine ⟨fun h => absurd h.1 (by decide), ?_⟩
  rintro ⟨-, h⟩
  revert h
  decide

theorem witness_StackRefused :
    StackRefused .pha (checked []) ∧ StackRefused .rts { checked [] with sp := 0x01 } :=
  ⟨⟨rfl, by decide⟩, rfl, by decide⟩

theorem witness_EveryInstructionCompletes :
    ¬StackRefused (.adcImm 0x01) (start []) ∧ ¬DecimalRefused (.adcImm 0x01) (start []) ∧
      PlainConfig (start []).cfg :=
  ⟨fun h => absurd h.1 (by decide), fun h => absurd h.1 (by decide), rfl, rfl⟩

/-- DECIMAL_POLICY = refuse with D = 1. -/
def decimal : State :=
  { start [] with cfg := { Config.extended with decimalPolicy := .refuse }
                  p := { Flags.clear with d := true } }

theorem witness_DecimalRefused :
    DecimalRefused (.adcImm 0x01) decimal ∧
      exec (.adcImm 0x01) decimal = .refused .decimalMode := ⟨⟨rfl, rfl, .inl rfl⟩, rfl⟩

/-- The refusal of SBC (log 9), and none of it with D = 0. -/
theorem witness_DecimalRefused_sbc :
    sbcForm (.sbcImm 0x01) = some (.imm 0x01) ∧ DecimalRefused (.sbcImm 0x01) decimal ∧
      exec (.sbcImm 0x01) decimal = .refused .decimalMode ∧
      ∃ t, exec (.sbcImm 0x01) { decimal with p := Flags.clear } = .next t :=
  ⟨rfl, ⟨rfl, rfl, .inr rfl⟩, rfl, _, rfl⟩

theorem witness_canonical_memory : (start [0x20, 0x42, 0xAA]).mem.wf = true := by decide

theorem witness_WordAccessIsLittleEndian :
    (start [0xEA]).mem.wf = true ∧ (0x0001 : Addr) ≠ 0xFFFF ∧ (0x0001 : Addr) ≠ 0xFFFF + 1 := by
  decide

/-- Each family of the result statements has members, at the ends of the operand range. -/
theorem witness_forms :
    loadForm (.ldaIndY 0xFF) = some (.a, .mem (.indY 0xFF)) ∧
      loadForm (.ldxImm 0x00) = some (.x, .imm 0x00) ∧
      storeForm (.styAbs 0xFFFF) = some (.y, .abs 0xFFFF) ∧
      transferForm .tsx = some (.x, .sp) ∧
      adcForm (.adcAbsX 0xFFFF) = some (.mem (.absX 0xFFFF)) ∧
      sbcForm (.sbcImm 0xFF) = some (.imm 0xFF) ∧
      logicForm (.eorIndX 0xFF) = some (.xor, .mem (.indX 0xFF)) ∧
      compareForm (.cpyZp 0xFF) = some (.y, .mem (.zp 0xFF)) ∧
      bitForm (.bitAbs 0xFFFF) = some (.mem (.abs 0xFFFF)) ∧
      rmwAccForm .rorAcc = some .ror ∧ rmwForm (.decAbsX 0xFFFF) = some (.dec, .absX 0xFFFF) ∧
      indexStepForm .dey = some (.y, 255) ∧ branchForm (.bvs 0x80) = some (.v, true, 0x80) ∧
      flagForm .clv = some (.v, false) := by decide

theorem witness_stack_instructions :
    ¬StackRefused (.jsr 0xFFFF) (start []) ∧ ¬StackRefused .rts (start []) ∧
      ¬StackRefused .brk (start []) ∧ ¬StackRefused .rti (start []) ∧
      ¬StackRefused .php (start []) ∧ ¬StackRefused .pla (start []) ∧
      ¬StackRefused .plp (start []) := by
  refine ⟨?_, ?_, ?_, ?_, ?_, ?_, ?_⟩ <;> exact fun h => absurd h.1 (by decide)

theorem witness_ReturnUndoesCall :
    ∃ t, (start []).mem.wf = true ∧ ¬StackRefused (.jsr 0x1234) (start []) ∧
      exec (.jsr 0x1234) (start []) = .next t :=
  ⟨_, by decide, fun h => absurd h.1 (by decide), rfl⟩

theorem witness_ReturnUndoesSoftwareInterrupt :
    ∃ t, (start []).mem.wf = true ∧ ¬StackRefused .brk (start []) ∧
      exec .brk (start []) = .next t := ⟨_, by decide, fun h => absurd h.1 (by decide), rfl⟩

end Sys2Proof.Tests
end

section
/-! SUPPORT. What `exec` runs for each family of Sys2Proof/Safety.lean: one equation per family, in
the shared operations of the model. Proofs about all instructions split by
`Sys2Proof.Laws.form_cases` and rewrite with these. -/

namespace Sys2Proof.Proofs

open Sys2Proof.Machine Sys2Proof.Safety

/-! ### The machine's functions behind the names of the families -/

/-- The machine's function of a bitwise operation (46_ext_arith_logic.md R111 to R113). -/
def logicFunction : LogicOp → Byte → Byte → Byte
  | .and => fun a m => a &&& m
  | .or => fun a m => a ||| m
  | .xor => fun a m => a ^^^ m

/-- The machine's function of a read-modify-write operation (47_ext_shift_incdec.md R119 to
R124). -/
def rmwFunction : RmwOp → RmwFunction
  | .asl => shiftLeft
  | .lsr => shiftRight
  | .rol => rotateLeft
  | .ror => rotateRight
  | .inc => increment
  | .dec => decrement

/-- INC and DEC leave C as it is (47_ext_shift_incdec.md R123, R124). -/
theorem rmwFunction_carry {op : RmwOp} (h : op = .inc ∨ op = .dec) (v : Byte) (c : Bool) :
    (rmwFunction op v c).2 = c := by
  rcases h with rfl | rfl <;> rfl

/-! ### The families -/

section
variable {i : Instr}

theorem exec_load {r : Reg} {src : Source} (h : loadForm i = some (r, src)) (s : State) :
    exec i s = .next ((putReg r (operand src s).1 (operand src s).2).setNZ (operand src s).1) := by
  cases i <;> cases h <;> rfl

theorem exec_store {r : Reg} {m : Mode} (h : storeForm i = some (r, m)) (s : State) :
    exec i s = store m (getReg s r) s := by
  cases i <;> cases h <;> rfl

theorem exec_transfer {dst src : Reg} (h : transferForm i = some (dst, src)) (s : State) :
    exec i s = .next ((putReg dst (getReg s src) (implied s)).setNZ (getReg s src)) := by
  cases i <;> cases h <;> rfl

theorem exec_txs (s : State) : exec .txs s = .next (putReg .sp s.x (implied s)) := rfl

theorem exec_adc {src : Source} (h : adcForm i = some src) (s : State) :
    exec i s = addWith id src s := by
  cases i <;> cases h <;> rfl

theorem exec_sbc {src : Source} (h : sbcForm i = some src) (s : State) :
    exec i s = addWith (fun m => m ^^^ 0xFF#8) src s := by
  cases i <;> cases h <;> rfl

theorem exec_logic {op : LogicOp} {src : Source} (h : logicForm i = some (op, src)) (s : State) :
    exec i s = logic (logicFunction op) src s := by
  cases i <;> cases h <;> rfl

theorem exec_compare {r : Reg} {src : Source} (h : compareForm i = some (r, src)) (s : State) :
    exec i s = compareWith (getReg s r) src s := by
  cases i <;> cases h <;> rfl

theorem exec_bit {src : Source} (h : bitForm i = some src) (s : State) :
    exec i s = bitTest src s := by
  cases i <;> cases h <;> rfl

theorem exec_rmwAcc {op : RmwOp} (h : rmwAccForm i = some op) (s : State) :
    exec i s = rmwA (rmwFunction op) s := by
  cases i <;> cases h <;> rfl

theorem exec_rmw {op : RmwOp} {m : Mode} (h : rmwForm i = some (op, m)) (s : State) :
    exec i s = rmwMem (rmwFunction op) m s := by
  cases i <;> cases h <;> rfl

theorem exec_indexStep {r : Reg} {k : Nat} (h : indexStepForm i = some (r, k)) (s : State) :
    exec i s = .next ((putReg r (getReg s r + BitVec.ofNat 8 k) (implied s)).setNZ
      (getReg s r + BitVec.ofNat 8 k)) := by
  have sub_one (v : Byte) : v - 1 = v + BitVec.ofNat 8 255 := BitVec.sub_eq_add_neg v 1
  cases i <;> cases h
  · rfl
  · rfl
  · exact sub_one s.x ▸ rfl
  · exact sub_one s.y ▸ rfl

theorem exec_branch {f : FlagName} {value : Bool} {d : Byte}
    (h : branchForm i = some (f, value, d)) (s : State) :
    exec i s = branch (taken s f value) d s := by
  have eq_true_of (b : Bool) : (b == true) = b := by cases b <;> rfl
  have eq_false_of (b : Bool) : (b == false) = !b := by cases b <;> rfl
  cases i <;> cases h <;> simp only [taken, eq_true_of, eq_false_of] <;> rfl

theorem exec_flag {f : FlagName} {value : Bool} (h : flagForm i = some (f, value)) (s : State) :
    exec i s = .next ((implied s).setP (putFlag s.p f value)) := by
  cases i <;> cases h <;> rfl

end

/-! ### The instructions that are a family of their own -/

theorem exec_jmpAbs (w : Addr) (s : State) : exec (.jmpAbs w) s = jump (absolute w s) := rfl
theorem exec_jmpInd (w : Addr) (s : State) : exec (.jmpInd w) s = jump (indirect w s) := rfl
theorem exec_nop (s : State) : exec .nop s = .next (implied s) := rfl

theorem exec_unknown (op : Byte) (s : State) :
    exec (.unknown op) s = .next (raiseUnknownOpcode s op) := rfl

/-- Everything an unknown opcode does, with both policies (42_dispatch_loop.md R77). -/
theorem raiseUnknownOpcode_eq (s : State) (op : Byte) :
    raiseUnknownOpcode s op = { s with
      diag := s.diag ++ [op]
      run := if s.cfg.unknownPolicy = .fatal then .halted else s.run } := by
  unfold raiseUnknownOpcode
  cases s.cfg.unknownPolicy <;> rfl

end Sys2Proof.Proofs
end

section
/-! SUPPORT. What an instruction of the table may change: the frame of a run of shared operations,
and a rule per operation. -/

namespace Sys2Proof.Proofs

open Sys2Proof.Machine Sys2Proof.Safety Sys2Proof.Laws

/-! ### Reading registers and flags after an update -/

theorem getReg_putReg_other {r r' : Reg} (h : r' ≠ r) (v : Byte) (s : State) :
    getReg (putReg r v s) r' = getReg s r' := by
  cases r <;> cases r' <;> first | rfl | exact absurd rfl h

theorem getFlag_putFlag_other {f f' : FlagName} (h : f' ≠ f) (v : Bool) (p : Flags) :
    getFlag (putFlag p f v) f' = getFlag p f' := by
  cases f <;> cases f' <;> first | rfl | exact absurd rfl h

theorem getFlag_setNZ_other {f : FlagName} (hn : f ≠ .n) (hz : f ≠ .z) (p : Flags) (v : Byte) :
    getFlag (p.setNZ v) f = getFlag p f := by
  cases f <;> first | rfl | contradiction

theorem getReg_setPc (s : State) (v : Addr) (r : Reg) : getReg (s.setPc v) r = getReg s r := by
  cases r <;> rfl

theorem getReg_setP (s : State) (v : Flags) (r : Reg) : getReg (s.setP v) r = getReg s r := by
  cases r <;> rfl

theorem getReg_charge (s : State) (n : Nat) (r : Reg) : getReg (s.charge n) r = getReg s r := by
  cases r <;> rfl

theorem getReg_memWrite (s : State) (addr : Addr) (v : Byte) (r : Reg) :
    getReg (memWrite s addr v) r = getReg s r := by
  cases r <;> rfl

/-- A store takes 3 to 6 cycles (45_ext_load_store_transfer.md R100 to R102). -/
theorem storeCycles_bounds (m : Mode) : 3 ≤ storeCycles m ∧ storeCycles m ≤ 6 := by
  cases m <;> simp [storeCycles]

/-! ### The frame -/

/-- Between `s` and `t` lies a part of the meaning of `i` that charges at most `n` cycles: the
registers and flags `i` does not write are as before (10_state.md R12), RUN, DIAG and the fields
outside the Core too, canonical memory stays canonical, and no cycle is given back. -/
structure Frame (i : Instr) (n : Nat) (s t : State) : Prop where
  regs    : ∀ r, writesReg i r = false → getReg t r = getReg s r
  flags   : ∀ f, writesFlag i f = false → getFlag t.p f = getFlag s.p f
  budget  : t.budget = s.budget
  cfg     : t.cfg = s.cfg
  script  : t.script = s.script
  run     : t.run = s.run
  diag    : t.diag = s.diag
  memory  : s.mem.wf = true → t.mem.wf = true
  spent   : t.cyc ≤ s.cyc
  charged : s.cyc ≤ t.cyc + n

namespace Frame

variable {i : Instr} {n : Nat} {s t : State}

theorem refl (i : Instr) (s : State) : Frame i 0 s s :=
  ⟨fun _ _ => rfl, fun _ _ => rfl, rfl, rfl, rfl, rfl, rfl, id, le_refl _, by omega⟩

/-- A larger bound on the cycles. -/
theorem mono {m : Nat} (h : Frame i n s t) (hle : n ≤ m) : Frame i m s t :=
  { h with charged := by have := h.charged; omega }

/-! #### Registers, flags, cycles, memory -/

theorem setPc (h : Frame i n s t) (v : Addr) : Frame i n s (t.setPc v) :=
  { h with regs := fun r hr => (getReg_setPc t v r).trans (h.regs r hr) }

theorem setP (h : Frame i n s t) {q : Flags}
    (hq : ∀ f, writesFlag i f = false → getFlag q f = getFlag s.p f) : Frame i n s (t.setP q) :=
  { h with
    regs := fun r hr => (getReg_setP t q r).trans (h.regs r hr)
    flags := hq }

theorem setNZ (h : Frame i n s t) (hw : writesNZ i = true) (v : Byte) : Frame i n s (t.setNZ v) :=
  h.setP fun f hf => by
    have hn : f ≠ .n := by rintro rfl; exact absurd hf (by simp [writesFlag, hw])
    have hz : f ≠ .z := by rintro rfl; exact absurd hf (by simp [writesFlag, hw])
    rw [getFlag_setNZ_other hn hz, h.flags f hf]

theorem putReg (h : Frame i n s t) {r : Reg} (hw : writesReg i r = true) (v : Byte) :
    Frame i n s (putReg r v t) := by
  have regs : ∀ r', writesReg i r' = false → getReg (Safety.putReg r v t) r' = getReg s r' := by
    intro r' hr'
    have hne : r' ≠ r := by rintro rfl; simp [hw] at hr'
    rw [getReg_putReg_other hne, h.regs r' hr']
  cases r <;> exact { h with regs := regs }

theorem charge (h : Frame i n s t) (k : Nat) : Frame i (n + k) s (t.charge k) :=
  { h with
    regs := fun r hr => (getReg_charge t k r).trans (h.regs r hr)
    spent := by have := h.spent; rw [charge_cyc]; omega
    charged := by have := h.charged; rw [charge_cyc]; omega }

theorem memWrite (h : Frame i n s t) (addr : Addr) (v : Byte) :
    Frame i n s (memWrite t addr v) :=
  { h with
    regs := fun r hr => (getReg_memWrite t addr v r).trans (h.regs r hr)
    memory := fun hs => memWrite_wf (h.memory hs) addr v }

/-! #### Fetches, charged accesses, the stack -/

theorem pastByte (h : Frame i n s t) : Frame i (n + 1) s (pastByte t) := (h.setPc _).charge 1

theorem pastWord (h : Frame i n s t) : Frame i (n + 2) s (pastWord t) := h.pastByte.pastByte

theorem readByte (h : Frame i n s t) (addr : Addr) : Frame i (n + 1) s (readByte t addr).2 :=
  h.charge 1

theorem writeByte (h : Frame i n s t) (addr : Addr) (v : Byte) :
    Frame i (n + 1) s (writeByte t addr v) := (h.memWrite addr v).charge 1

theorem implied (h : Frame i n s t) : Frame i (n + 1) s (implied t) := h.charge 1

theorem pushByte (h : Frame i n s t) (hw : writesReg i .sp = true) (v : Byte) :
    Frame i (n + 1) s (pushByte t v) := (h.writeByte _ v).putReg hw _

theorem pushWord (h : Frame i n s t) (hw : writesReg i .sp = true) (w : Addr) :
    Frame i (n + 2) s (pushWord t w) := (h.pushByte hw _).pushByte hw _

theorem pullByte (h : Frame i n s t) (hw : writesReg i .sp = true) :
    Frame i (n + 1) s (pullByte t).2 := (h.putReg hw _).readByte _

theorem pullWord (h : Frame i n s t) (hw : writesReg i .sp = true) :
    Frame i (n + 2) s (pullWord t).2 := (h.pullByte hw).pullByte hw

/-! #### Addressing -/

theorem indexed (h : Frame i n s t) (acc : Access) (base : Addr) (index : Byte) :
    Frame i (n + 1) s (indexed acc base index t).2 := by
  cases acc with
  | reading =>
    unfold Machine.indexed
    dsimp only
    split
    · exact h.charge 1
    · exact h.mono (by omega)
  | writing => exact h.charge 1

theorem zeroPagePointer (h : Frame i n s t) (z : Byte) :
    Frame i (n + 2) s (zeroPagePointer z t).2 := (h.charge 1).charge 1

/-- Forming an address charges two cycles less than a store through it. -/
theorem resolve (i : Instr) (acc : Access) (m : Mode) (s : State) :
    Frame i (storeCycles m - 2) s (resolve acc m s).2 := by
  have h := refl i s
  cases m with
  | zp d => exact h.pastByte
  | zpX d => exact h.pastByte.charge 1
  | zpY d => exact h.pastByte.charge 1
  | abs w => exact h.pastWord
  | absX w => exact h.pastWord.indexed acc w s.x
  | absY w => exact h.pastWord.indexed acc w s.y
  | indX d => exact (h.pastByte.charge 1).zeroPagePointer _
  | indY d => exact (h.pastByte.zeroPagePointer d).indexed acc _ s.y

theorem operand (i : Instr) (src : Source) (s : State) : Frame i 5 s (operand src s).2 := by
  cases src with
  | imm v => exact (refl i s).pastByte.mono (by decide)
  | mem m =>
    have := storeCycles_bounds m
    exact ((resolve i .reading m s).readByte _).mono (by omega)

end Frame
end Sys2Proof.Proofs
end

section
/-! SUPPORT. The frame of every instruction of the table, family by family, and from it the
inversion `exec_cases` of `exec`. -/

namespace Sys2Proof.Proofs

open Sys2Proof.Machine Sys2Proof.Safety Sys2Proof.Laws

/-- Every next state a meaning of `i` answers from `s` lies in the frame. -/
def Framed (i : Instr) (n : Nat) (s : State) (result : Result) : Prop :=
  ∀ t, result = .next t → Frame i n s t

namespace Framed

variable {i : Instr} {n : Nat} {s : State}

theorem next {t : State} (h : Frame i n s t) : Framed i n s (.next t) := by
  rintro _ ⟨⟩
  exact h

theorem mono {m : Nat} {result : Result} (h : Framed i n s result) (hle : n ≤ m) :
    Framed i m s result := fun t ht => (h t ht).mono hle

theorem stackGuard {result : Result} (h : Framed i n s result) (u : State) (wraps : Bool) :
    Framed i n s (stackGuard u wraps result) := by
  rcases stackGuard_cases u wraps result with ⟨heq, -⟩ | ⟨heq, -⟩ <;> rw [heq]
  · exact h
  · intro t ht
    cases ht

theorem decimalGuard {result : Result} (h : Framed i n s result) (u : State) :
    Framed i n s (decimalGuard u result) := by
  rcases decimalGuard_cases u result with ⟨heq, -⟩ | ⟨heq, -⟩ <;> rw [heq]
  · exact h
  · intro t ht
    cases ht

end Framed

/-! ### What the flag computations leave alone -/

section
variable {i : Instr} (p : Flags)

theorem afterAdd_frame (a m : Byte) (hnz : writesNZ i = true) (hc : writesFlag i .c = true)
    (hv : writesFlag i .v = true) (f : FlagName) (hf : writesFlag i f = false) :
    getFlag (p.afterAdd a m) f = getFlag p f := by
  cases f with
  | n | z => exact absurd hf (by simp [writesFlag, hnz])
  | c => simp [hc] at hf
  | v => simp [hv] at hf
  | b | d | i => rfl

theorem afterCompare_frame (r m : Byte) (hnz : writesNZ i = true) (hc : writesFlag i .c = true)
    (f : FlagName) (hf : writesFlag i f = false) :
    getFlag (p.afterCompare r m) f = getFlag p f := by
  cases f with
  | n | z => exact absurd hf (by simp [writesFlag, hnz])
  | c => simp [hc] at hf
  | v | b | d | i => rfl

theorem afterBit_frame (a m : Byte) (hnz : writesNZ i = true) (hv : writesFlag i .v = true)
    (f : FlagName) (hf : writesFlag i f = false) :
    getFlag (p.afterBit a m) f = getFlag p f := by
  cases f with
  | n | z => exact absurd hf (by simp [writesFlag, hnz])
  | v => simp [hv] at hf
  | c | b | d | i => rfl

/-- INC and DEC write Z and N alone, the shifts C too. -/
theorem afterRmw_frame (op : RmwOp) (v : Byte) (hnz : writesNZ i = true)
    (hc : writesFlag i .c = true ∨ op = .inc ∨ op = .dec) (f : FlagName)
    (hf : writesFlag i f = false) :
    getFlag (p.afterRmw (rmwFunction op) v) f = getFlag p f := by
  cases f with
  | n | z => exact absurd hf (by simp [writesFlag, hnz])
  | c =>
    rcases hc with hc | hop
    · simp [hc] at hf
    · exact rmwFunction_carry hop v p.c
  | v | b | d | i => rfl

/-- A pulled flag byte writes every flag but B (10_state.md R13). -/
theorem unpack_frame (byte : Byte) (hw : ∀ f, f ≠ .b → writesFlag i f = true) (f : FlagName)
    (hf : writesFlag i f = false) : getFlag (p.unpack byte) f = getFlag p f := by
  have hb : f = .b := by
    by_contra hne
    simp [hw f hne] at hf
  subst hb
  rfl

end

/-! ### The families -/

section
variable {i : Instr}

theorem load_frame {r : Reg} {src : Source} (h : loadForm i = some (r, src)) (s : State) :
    Framed i 5 s (exec i s) := by
  have hr : writesReg i r = true := by simp [writesReg, h]
  have hnz : writesNZ i = true := by simp [writesNZ, readForm, h]
  rw [exec_load h]
  exact .next (((Frame.operand i src s).putReg hr _).setNZ hnz _)

theorem store_frame {r : Reg} {m : Mode} (h : storeForm i = some (r, m)) (s : State) :
    Framed i 5 s (exec i s) := by
  have := storeCycles_bounds m
  rw [exec_store h]
  exact .next (((Frame.resolve i .writing m s).writeByte _ _).mono (by omega))

theorem transfer_frame {dst src : Reg} (h : transferForm i = some (dst, src)) (s : State) :
    Framed i 1 s (exec i s) := by
  have hr : writesReg i dst = true := by simp [writesReg, h]
  have hnz : writesNZ i = true := by simp [writesNZ, h]
  rw [exec_transfer h]
  exact .next (((Frame.refl i s).implied.putReg hr _).setNZ hnz _)

theorem txs_frame (s : State) : Framed .txs 1 s (exec .txs s) :=
  .next ((Frame.refl .txs s).implied.putReg (r := .sp) rfl _)

theorem addWith_frame (g : Byte → Byte) (src : Source) (s : State) (ha : writesReg i .a = true)
    (hnz : writesNZ i = true) (hc : writesFlag i .c = true) (hv : writesFlag i .v = true) :
    Framed i 5 s (addWith g src s) :=
  .decimalGuard (.next (((Frame.operand i src s).setP
    (afterAdd_frame s.p s.a _ hnz hc hv)).putReg ha _)) s

theorem adc_frame {src : Source} (h : adcForm i = some src) (s : State) :
    Framed i 5 s (exec i s) := by
  rw [exec_adc h]
  exact addWith_frame id src s (by simp [writesReg, writesA, h]) (by simp [writesNZ, readForm, h])
    (by simp [writesFlag, h]) (by simp [writesFlag, h])

theorem sbc_frame {src : Source} (h : sbcForm i = some src) (s : State) :
    Framed i 5 s (exec i s) := by
  rw [exec_sbc h]
  exact addWith_frame _ src s (by simp [writesReg, writesA, h]) (by simp [writesNZ, readForm, h])
    (by simp [writesFlag, h]) (by simp [writesFlag, h])

theorem logic_frame {op : LogicOp} {src : Source} (h : logicForm i = some (op, src)) (s : State) :
    Framed i 5 s (exec i s) := by
  have ha : writesReg i .a = true := by simp [writesReg, writesA, h]
  have hnz : writesNZ i = true := by simp [writesNZ, readForm, h]
  rw [exec_logic h]
  exact .next (((Frame.operand i src s).putReg ha _).setNZ hnz _)

theorem compare_frame {r : Reg} {src : Source} (h : compareForm i = some (r, src)) (s : State) :
    Framed i 5 s (exec i s) := by
  have hnz : writesNZ i = true := by simp [writesNZ, readForm, h]
  have hc : writesFlag i .c = true := by simp [writesFlag, h]
  rw [exec_compare h]
  exact .next ((Frame.operand i src s).setP (afterCompare_frame s.p _ _ hnz hc))

theorem bit_frame {src : Source} (h : bitForm i = some src) (s : State) :
    Framed i 5 s (exec i s) := by
  have hnz : writesNZ i = true := by simp [writesNZ, readForm, h]
  have hv : writesFlag i .v = true := by simp [writesFlag, h]
  rw [exec_bit h]
  exact .next ((Frame.operand i src s).setP (afterBit_frame s.p _ _ hnz hv))

theorem rmwAcc_frame {op : RmwOp} (h : rmwAccForm i = some op) (s : State) :
    Framed i 1 s (exec i s) := by
  have ha : writesReg i .a = true := by simp [writesReg, writesA, h]
  have hnz : writesNZ i = true := by simp [writesNZ, h]
  have hc : writesFlag i .c = true := by simp [writesFlag, h]
  rw [exec_rmwAcc h]
  exact .next (((Frame.refl i s).implied.putReg ha _).setP
    (afterRmw_frame s.p op s.a hnz (.inl hc)))

/-- The read-modify-write forms have no indirect mode (47_ext_shift_incdec.md R118). -/
theorem rmwForm_storeCycles {op : RmwOp} {m : Mode} (h : rmwForm i = some (op, m)) :
    storeCycles m ≤ 5 := by
  cases i <;> cases h <;> simp [storeCycles]

theorem rmw_frame {op : RmwOp} {m : Mode} (h : rmwForm i = some (op, m)) (s : State) :
    Framed i 6 s (exec i s) := by
  have hnz : writesNZ i = true := by simp [writesNZ, h]
  have hc : writesFlag i .c = true ∨ op = .inc ∨ op = .dec := by
    cases op <;> simp [writesFlag, h]
  have := rmwForm_storeCycles h
  have := storeCycles_bounds m
  rw [exec_rmw h]
  exact .next ((((((Frame.resolve i .writing m s).readByte _).charge 1).setP
    (afterRmw_frame s.p op _ hnz hc)).writeByte _ _).mono (by omega))

theorem indexStep_frame {r : Reg} {k : Nat} (h : indexStepForm i = some (r, k)) (s : State) :
    Framed i 1 s (exec i s) := by
  have hr : writesReg i r = true := by simp [writesReg, h]
  have hnz : writesNZ i = true := by simp [writesNZ, h]
  rw [exec_indexStep h]
  exact .next (((Frame.refl i s).implied.putReg hr _).setNZ hnz _)

theorem branch_frame {f : FlagName} {value : Bool} {d : Byte}
    (h : branchForm i = some (f, value, d)) (s : State) : Framed i 3 s (exec i s) := by
  have ht : Frame i 1 s (relative d s).2 := (Frame.refl i s).pastByte
  rw [exec_branch h, branch]
  split
  · refine .next (Frame.setPc ?_ _)
    split
    · exact (ht.charge 1).charge 1
    · exact (ht.charge 1).mono (by omega)
  · exact .next (ht.mono (by omega))

theorem flag_frame {f : FlagName} {value : Bool} (h : flagForm i = some (f, value)) (s : State) :
    Framed i 1 s (exec i s) := by
  have hw : writesFlag i f = true := by cases i <;> cases h <;> rfl
  rw [exec_flag h]
  refine .next ((Frame.refl i s).implied.setP fun f' hf' => getFlag_putFlag_other ?_ value s.p)
  rintro rfl
  simp [hw] at hf'

end

/-! ### Jumps, calls, the software interrupt, the stack -/

theorem jmpAbs_frame (w : Addr) (s : State) : Framed (.jmpAbs w) 2 s (exec (.jmpAbs w) s) :=
  .next ((Frame.refl _ s).pastWord.setPc _)

theorem jmpInd_frame (w : Addr) (s : State) : Framed (.jmpInd w) 4 s (exec (.jmpInd w) s) :=
  .next ((((Frame.refl _ s).pastWord.charge 1).charge 1).setPc _)

theorem jsr_frame (w : Addr) (s : State) : Framed (.jsr w) 5 s (exec (.jsr w) s) :=
  .stackGuard (.next ((((Frame.refl _ s).pastWord.pushWord rfl _).setPc _).charge 1)) s _

theorem rts_frame (s : State) : Framed .rts 5 s (exec .rts s) :=
  .stackGuard (.next ((((Frame.refl _ s).pullWord rfl).setPc _).charge 3)) s _

theorem brk_frame (s : State) : Framed .brk 6 s (exec .brk s) := by
  have flags (f : FlagName) (hf : writesFlag .brk f = false) :
      getFlag { s.p with i := true } f = getFlag s.p f := by
    cases f with
    | i => cases hf
    | n | v | b | d | z | c => rfl
  exact .stackGuard (.next ((((((Frame.refl .brk s).pastByte.pushWord rfl _).pushByte rfl _).setP
    flags).setPc _).charge 2)) s _

/-- PLP and RTI write every flag but B. -/
theorem pulled_flags_written {i : Instr} (h : i = .plp ∨ i = .rti) (f : FlagName) (hf : f ≠ .b) :
    writesFlag i f = true := by
  rcases h with rfl | rfl <;> cases f <;> first | rfl | contradiction

theorem rti_frame (s : State) : Framed .rti 5 s (exec .rti s) :=
  .stackGuard (.next ((((((Frame.refl .rti s).pullByte rfl).setP
    (unpack_frame s.p _ (pulled_flags_written (.inr rfl)))).pullWord rfl).setPc _).charge 2)) s _

theorem nop_frame (s : State) : Framed .nop 1 s (exec .nop s) := .next (Frame.refl _ s).implied

theorem pha_frame (s : State) : Framed .pha 2 s (exec .pha s) :=
  .stackGuard (.next (((Frame.refl _ s).charge 1).pushByte rfl _)) s _

theorem php_frame (s : State) : Framed .php 2 s (exec .php s) :=
  .stackGuard (.next (((Frame.refl _ s).charge 1).pushByte rfl _)) s _

theorem pla_frame (s : State) : Framed .pla 3 s (exec .pla s) :=
  .stackGuard (.next (((((Frame.refl _ s).charge 2).pullByte rfl).putReg (r := .a) rfl _).setNZ
    rfl _)) s _

theorem plp_frame (s : State) : Framed .plp 3 s (exec .plp s) :=
  .stackGuard (.next ((((Frame.refl _ s).charge 2).pullByte rfl).setP
    (unpack_frame s.p _ (pulled_flags_written (.inl rfl))))) s _

/-! ### Every instruction -/

/-- The frame of every instruction of the table: at most 6 cycles after the opcode fetch. -/
theorem exec_framed {i : Instr} (hi : ∀ op, i ≠ .unknown op) (s : State) :
    Framed i 6 s (exec i s) := by
  rcases form_cases i with ⟨r, src, h⟩ | ⟨r, m, h⟩ | ⟨dst, src, h⟩ | rfl | ⟨src, h⟩ | ⟨src, h⟩ |
    ⟨op, src, h⟩ | ⟨r, src, h⟩ | ⟨src, h⟩ | ⟨op, h⟩ | ⟨op, m, h⟩ | ⟨r, k, h⟩ | ⟨f, v, d, h⟩ |
    ⟨f, v, h⟩ | ⟨w, rfl⟩ | ⟨w, rfl⟩ | ⟨w, rfl⟩ | rfl | rfl | rfl | rfl | rfl | rfl | rfl | rfl |
    ⟨op, rfl⟩
  · exact (load_frame h s).mono (by decide)
  · exact (store_frame h s).mono (by decide)
  · exact (transfer_frame h s).mono (by decide)
  · exact (txs_frame s).mono (by decide)
  · exact (adc_frame h s).mono (by decide)
  · exact (sbc_frame h s).mono (by decide)
  · exact (logic_frame h s).mono (by decide)
  · exact (compare_frame h s).mono (by decide)
  · exact (bit_frame h s).mono (by decide)
  · exact (rmwAcc_frame h s).mono (by decide)
  · exact rmw_frame h s
  · exact (indexStep_frame h s).mono (by decide)
  · exact (branch_frame h s).mono (by decide)
  · exact (flag_frame h s).mono (by decide)
  · exact (jmpAbs_frame w s).mono (by decide)
  · exact (jmpInd_frame w s).mono (by decide)
  · exact (jsr_frame w s).mono (by decide)
  · exact (rts_frame s).mono (by decide)
  · exact brk_frame s
  · exact (rti_frame s).mono (by decide)
  · exact (nop_frame s).mono (by decide)
  · exact (pha_frame s).mono (by decide)
  · exact (php_frame s).mono (by decide)
  · exact (pla_frame s).mono (by decide)
  · exact (plp_frame s).mono (by decide)
  · exact absurd rfl (hi op)

/-- Everything an instruction can do: report an unknown opcode, or stay in its frame. -/
theorem exec_cases {i : Instr} {s t : State} (h : exec i s = .next t) :
    (∃ op, i = .unknown op ∧ t = raiseUnknownOpcode s op) ∨
      ((∀ op, i ≠ .unknown op) ∧ Frame i 6 s t) := by
  by_cases hi : ∃ op, i = .unknown op
  · obtain ⟨op, rfl⟩ := hi
    cases h
    exact .inl ⟨op, rfl, rfl⟩
  · have hi : ∀ op, i ≠ .unknown op := fun op heq => hi ⟨op, heq⟩
    exact .inr ⟨hi, exec_framed hi s t h⟩

end Sys2Proof.Proofs
end

section
/-! SUPPORT. The dispatch under TABLE = BASE, and what one slot of the loop does to the state
(10_state.md R6, R7, R12, R17). -/

namespace Sys2Proof.Proofs

open Sys2Proof.Machine Sys2Proof.Safety Sys2Proof.Laws

/-! ### TABLE = BASE -/

/-- The rows of the dispatch table that BASE has (30_encoding.md R45). -/
theorem baseRows : opcodeTable.filter (·.inBase) =
    [⟨0x20#8, true, .word .jsr⟩, ⟨0xA5#8, true, .byte .ldaZp⟩, ⟨0xA9#8, true, .byte .ldaImm⟩,
      ⟨0xB5#8, true, .byte .ldaZpX⟩] := rfl

/-- Under BASE a byte decodes to one of the four entries or to an unknown opcode. -/
theorem decodeBytes_base (op b1 b2 : Byte) :
    decodeBytes .base op b1 b2 = .unknown op ∨ (decodeBytes .base op b1 b2).inBase = true := by
  unfold decodeBytes
  cases hrow : lookupOpcode .base op with
  | none => exact .inl rfl
  | some row =>
    have hbase : row.inBase = true := by
      have := List.find?_some hrow
      simp_all
    have hmem : row ∈ opcodeTable.filter (·.inBase) :=
      List.mem_filter.mpr ⟨List.mem_of_find?_eq_some hrow, hbase⟩
    rw [baseRows] at hmem
    simp only [List.mem_cons, List.not_mem_nil, or_false] at hmem
    rcases hmem with rfl | rfl | rfl | rfl <;> exact .inr rfl

theorem instrAt_inBase {s : State} (ht : s.cfg.table = .base)
    (hi : ∀ op, instrAt s ≠ .unknown op) : (instrAt s).inBase = true := by
  have := decodeBytes_base (memRead s s.pc) (memRead s (s.pc + 1)) (memRead s (s.pc + 2))
  rw [← ht] at this
  exact this.resolve_left (hi _)

/-- The instructions of BASE are loads of A and JSR (30_encoding.md R45). -/
theorem inBase_cases {i : Instr} (h : i.inBase = true) :
    (∃ src, loadForm i = some (.a, src)) ∨ ∃ w, i = .jsr w := by
  cases i <;> first
    | exact .inl ⟨_, rfl⟩
    | exact .inr ⟨_, rfl⟩
    | cases h

/-- In BASE an instruction charges at most 5 cycles after the opcode fetch. -/
theorem exec_framed_inBase {i : Instr} (h : i.inBase = true) (s : State) :
    Framed i 5 s (exec i s) := by
  rcases inBase_cases h with ⟨src, hl⟩ | ⟨w, rfl⟩
  · exact load_frame hl s
  · exact jsr_frame w s

theorem inBase_writesReg {i : Instr} (h : i.inBase = true) {r : Reg} (hr : r = .x ∨ r = .y) :
    writesReg i r = false := by
  rcases hr with rfl | rfl <;> cases i <;> first | rfl | cases h

theorem inBase_writesFlag {i : Instr} (h : i.inBase = true) {f : FlagName} (hn : f ≠ .n)
    (hz : f ≠ .z) : writesFlag i f = false := by
  cases f with
  | n => exact absurd rfl hn
  | z => exact absurd rfl hz
  | v | b | d | i | c => cases i <;> first | rfl | cases h

/-! ### One slot -/

/-- What a slot's meaning ends in, from the state before the opcode fetch: at most the largest cost
of the table is charged (42_dispatch_loop.md R79). -/
theorem slot_charged {s u : State} (h : exec (instrAt s) (enterSlot s) = .next u) :
    u.cyc < s.cyc ∧ s.cyc ≤ u.cyc + maxCost s.cfg.table := by
  have hstart : (enterSlot s).cyc = s.cyc - 1 := rfl
  rcases exec_cases h with ⟨op, -, rfl⟩ | ⟨hi, hf⟩
  · rw [raiseUnknownOpcode_eq]
    dsimp only
    rw [hstart]
    cases s.cfg.table <;> simp only [maxCost] <;> omega
  · have hspent := hf.spent
    cases ht : s.cfg.table with
    | base =>
      have := (exec_framed_inBase (instrAt_inBase ht hi) _ u h).charged
      simp only [maxCost]
      omega
    | ext =>
      have := hf.charged
      simp only [maxCost]
      omega

/-- What every meaning keeps, an unknown opcode's too (10_state.md R6, R12). -/
structure SlotKeeps (s t : State) : Prop where
  budget : t.budget = s.budget
  cfg    : t.cfg = s.cfg
  script : t.script = s.script
  brk    : t.p.b = s.p.b
  memory : s.mem.wf = true → t.mem.wf = true

theorem exec_keeps {i : Instr} {s t : State} (h : exec i s = .next t) : SlotKeeps s t := by
  rcases exec_cases h with ⟨op, -, rfl⟩ | ⟨-, hf⟩
  · rw [raiseUnknownOpcode_eq]
    exact ⟨rfl, rfl, rfl, rfl, id⟩
  · exact ⟨hf.budget, hf.cfg, hf.script, hf.flags .b rfl, hf.memory⟩

/-- A slot starts from a state that keeps them too. -/
theorem slot_keeps {s u : State} (h : exec (instrAt s) (enterSlot s) = .next u) :
    SlotKeeps s u := by
  obtain ⟨hbudget, hcfg, hscript, hbrk, hmem⟩ := exec_keeps h
  exact ⟨hbudget, hcfg, hscript, hbrk, hmem⟩

/-- A slot ends Execute only under UNKNOWN_POLICY = fatal (42_dispatch_loop.md R77). -/
theorem slot_not_halted {s u : State} (h : exec (instrAt s) (enterSlot s) = .next u)
    (hp : s.cfg.unknownPolicy = .lenient) : u.run ≠ .halted := by
  have hstart : (enterSlot s).run ≠ .halted := by
    show phaseOf (instrAt s) ≠ .halted
    unfold phaseOf
    split <;> decide
  rcases exec_cases h with ⟨op, -, rfl⟩ | ⟨-, hf⟩
  · have hc : (enterSlot s).cfg.unknownPolicy = .lenient := hp
    rw [raiseUnknownOpcode_eq]
    simpa [hc] using hstart
  · rw [hf.run]
    exact hstart

/-- The end of a slot sets RUN alone (42_dispatch_loop.md R74). -/
theorem slotEnd_eq (u : State) : (if u.run = .halted then u else u.setRun .fetching) =
    { u with run := if u.run = .halted then .halted else .fetching } := by
  split
  · rename_i h
    rw [← h]
  · rfl

end Sys2Proof.Proofs
end

section
/-! SUPPORT. Reset, the flag byte, the invariants of every step and the frame of every
instruction. -/

namespace Sys2Proof.Proofs

open Sys2Proof.Machine Sys2Proof.Safety Sys2Proof.Laws

/-! ### Reset -/

theorem hostReset_flags (s : State) (f : FlagName) : getFlag (hostReset s).p f = false := by
  cases f <;> rfl

theorem baseQuiet_hostReset (s : State) : BaseQuiet (hostReset s) :=
  fun _ => ⟨rfl, rfl, rfl, rfl, rfl, rfl, rfl⟩

/-- Reset leaves the budget where it stands, and Idle asks nothing of it. -/
theorem inv_hostReset {s : State} (h : Inv s) : Inv (hostReset s) where
  memory := rfl
  boundary := .inl rfl
  budget :=
    { overshoot := h.budget.overshoot, consumed := h.budget.consumed
      untouched := h.budget.untouched, positive := nofun, exhausted := nofun }

theorem inv_reset : Inv State.reset where
  memory := rfl
  boundary := .inl rfl
  budget :=
    { overshoot := nofun, consumed := le_refl _, untouched := fun _ => rfl
      positive := nofun, exhausted := nofun }

/-! ### The host's operations keep the invariants -/

theorem maxCost_pos (t : Table) : 0 < maxCost t := by cases t <;> decide

theorem inv_memWrite {s : State} (h : Inv s) (addr : Addr) (v : Byte) :
    Inv (memWrite s addr v) where
  memory := memWrite_wf h.memory addr v
  boundary := h.boundary
  budget := { h.budget with }

/-- Execute starts with CYC at the budget (log 18), inside the loop exactly on a positive one. -/
theorem inv_beginExecute {s : State} (h : Inv s) (budget : Int) : Inv (beginExecute s budget) where
  memory := h.memory
  boundary := by
    unfold AtBoundary beginExecute
    dsimp only
    split <;> simp
  budget :=
    { overshoot := fun hb => by
        have := maxCost_pos s.cfg.table
        show -(maxCost s.cfg.table - 1) ≤ budget
        have : 0 < budget := hb
        omega
      consumed := le_refl budget
      untouched := fun _ => rfl
      positive := fun hr => by
        by_contra hb
        simp [beginExecute, show ¬ 0 < budget from hb] at hr
      exhausted := fun hr _ => by
        show budget ≤ 0
        by_contra hb
        simp [beginExecute, show 0 < budget by omega] at hr }

theorem hostTurn_nil {s : State} (h : s.script = []) : hostTurn s = s := by simp [hostTurn, h]

/-- Every way the host's turn goes. -/
theorem hostTurn_cases (s : State) : (s.script = [] ∧ hostTurn s = s) ∨
    ∃ op rest, s.script = op :: rest ∧ hostTurn s = hostOp op { s with script := rest } := by
  cases h : s.script with
  | nil => exact .inl ⟨rfl, hostTurn_nil h⟩
  | cons op rest => exact .inr ⟨op, rest, rfl, hostTurn_cons h⟩

theorem inv_hostTurn {s : State} (h : Inv s) : Inv (hostTurn s) := by
  rcases hostTurn_cases s with ⟨-, ht⟩ | ⟨op, rest, -, ht⟩ <;> rw [ht]
  · exact h
  · have hs : Inv { s with script := rest } := ⟨h.memory, h.boundary, { h.budget with }⟩
    cases op with
    | reset => exact inv_hostReset hs
    | poke addr v => exact inv_memWrite hs addr v
    | execute budget => exact inv_beginExecute hs budget

theorem hostTurn_cfg (s : State) : (hostTurn s).cfg = s.cfg := by
  rcases hostTurn_cases s with ⟨-, ht⟩ | ⟨op, rest, -, ht⟩ <;> rw [ht]
  cases op <;> rfl

/-- The host changes X, Y and the flags only by a Reset, which clears them. -/
theorem hostTurn_registers (s : State) :
    ((hostTurn s).x = s.x ∧ (hostTurn s).y = s.y ∧ (hostTurn s).p = s.p) ∨
      ((hostTurn s).x = 0#8 ∧ (hostTurn s).y = 0#8 ∧ (hostTurn s).p = Flags.clear) := by
  rcases hostTurn_cases s with ⟨-, ht⟩ | ⟨op, rest, -, ht⟩ <;> rw [ht]
  · exact .inl ⟨rfl, rfl, rfl⟩
  · cases op with
    | reset => exact .inr ⟨rfl, rfl, rfl⟩
    | poke addr v => exact .inl ⟨rfl, rfl, rfl⟩
    | execute budget => exact .inl ⟨rfl, rfl, rfl⟩

/-! ### The step keeps the invariants -/

/-- At a boundary the budget test ends Execute on an exhausted budget (42_dispatch_loop.md R78). -/
theorem inv_endExecute {s : State} (h : Inv s) (hc : s.cyc ≤ 0) : Inv (endExecute s) where
  memory := h.memory
  boundary := .inr (.inr rfl)
  budget := { h.budget with positive := nofun, exhausted := fun _ _ => hc }

/-- A slot begun with budget left overshoots by at most the largest cost less 1. -/
theorem inv_slot {s u : State} (h : Inv s) (hc : 0 < s.cyc)
    (hu : exec (instrAt s) (enterSlot s) = .next u) :
    Inv (if u.run = .halted then u else u.setRun .fetching) := by
  have hkeeps := slot_keeps hu
  have hcost := slot_charged hu
  have hconsumed := h.budget.consumed
  have hbudget : 0 < u.budget := by
    rw [hkeeps.budget]
    omega
  rw [slotEnd_eq]
  refine ⟨hkeeps.memory h.memory, ?_, ?_⟩
  · unfold AtBoundary
    dsimp only
    split <;> simp
  · exact
      { overshoot := fun _ => by
          dsimp only
          rw [hkeeps.cfg]
          omega
        consumed := by
          dsimp only
          rw [hkeeps.budget]
          omega
        untouched := fun hb => absurd hbudget (not_lt.mpr hb)
        positive := fun _ => hbudget
        exhausted := fun hr hp => by
          dsimp only at hr hp
          rw [hkeeps.cfg] at hp
          rw [if_neg (slot_not_halted hu hp)] at hr
          cases hr }

/-- Under BASE a slot leaves X, Y and every flag but Z and N alone (10_state.md R7, R12). -/
theorem baseQuiet_slot {s u : State} (h : BaseQuiet s)
    (hu : exec (instrAt s) (enterSlot s) = .next u) : BaseQuiet u := by
  rcases exec_cases hu with ⟨op, -, rfl⟩ | ⟨hi, hf⟩
  · rw [raiseUnknownOpcode_eq]
    exact h
  · intro ht
    rw [hf.cfg] at ht
    have hb : (instrAt s).inBase = true := instrAt_inBase ht hi
    have hflag (f : FlagName) (hn : f ≠ .n) (hz : f ≠ .z) :
        getFlag u.p f = getFlag s.p f := hf.flags f (inBase_writesFlag hb hn hz)
    obtain ⟨hx, hy, hC, hV, hI, hD, hB⟩ := h ht
    exact ⟨(hf.regs .x (inBase_writesReg hb (.inl rfl))).trans hx,
      (hf.regs .y (inBase_writesReg hb (.inr rfl))).trans hy,
      (hflag .c nofun nofun).trans hC, (hflag .v nofun nofun).trans hV,
      (hflag .i nofun nofun).trans hI, (hflag .d nofun nofun).trans hD,
      (hflag .b nofun nofun).trans hB⟩

theorem baseQuiet_hostTurn {s : State} (h : BaseQuiet s) : BaseQuiet (hostTurn s) := by
  intro ht
  rw [hostTurn_cfg] at ht
  rcases hostTurn_registers s with ⟨hx, hy, hp⟩ | ⟨hx, hy, hp⟩ <;> rw [hx, hy, hp]
  · exact h ht
  · exact ⟨rfl, rfl, rfl, rfl, rfl, rfl, rfl⟩

/-! ### The flag byte -/

/-- The byte of the flags is their number (10_state.md R13). -/
theorem pack_toNat (p : Flags) : p.pack.toNat = flagNumber p p.b := by
  obtain ⟨n, v, b, d, i, z, c⟩ := p
  revert n v b d i z c
  decide

theorem unpack_eq_pulledFlags (p : Flags) (byte : Byte) : p.unpack byte = pulledFlags p byte := rfl

end Sys2Proof.Proofs

open Sys2Proof Sys2Proof.Machine Sys2Proof.Safety Sys2Proof.Laws Sys2Proof.Proofs

/-- Settles O17, by the ways a step goes: the host's turn, the end of Execute, and the slot
(`inv_slot`), where `slot_charged` bounds the overshoot. -/
theorem everyStepKeepsInvariant : Obligations.EveryStepKeepsInvariant := by
  intro s t hs h
  rcases step_cases h with ⟨-, rfl⟩ | ⟨-, hc, rfl⟩ | ⟨-, hc, u, hu, rfl⟩
  · exact inv_hostTurn hs
  · exact inv_endExecute hs hc
  · exact inv_slot hs hc hu

/-- Settles O18, by the ways a step goes: under BASE the frame of a slot leaves these registers and
flags alone, and a Reset clears them. -/
theorem everyStepKeepsBaseRegistersZero : Obligations.EveryStepKeepsBaseRegistersZero := by
  intro s t hs h
  rcases step_cases h with ⟨-, rfl⟩ | ⟨-, -, rfl⟩ | ⟨-, -, u, hu, rfl⟩
  · exact baseQuiet_hostTurn hs
  · exact hs
  · rw [slotEnd_eq]
    exact (baseQuiet_slot hs hu : BaseQuiet u)

/-- Settles O19, by the ways a step goes. -/
theorem parametersNeverChange : Obligations.ParametersNeverChange := by
  intro s t h
  rcases step_cases h with ⟨-, rfl⟩ | ⟨-, -, rfl⟩ | ⟨-, -, u, hu, rfl⟩
  · exact hostTurn_cfg s
  · rfl
  · rw [slotEnd_eq]
    exact (slot_keeps hu).cfg

/-- Settles O20, by the frame of an instruction and the ways a step goes. -/
theorem breakFlagIsNeverSet : Obligations.BreakFlagIsNeverSet := by
  refine ⟨fun i s t h => (exec_keeps h).brk, fun s t h hb => ?_⟩
  rcases step_cases h with ⟨-, rfl⟩ | ⟨-, -, rfl⟩ | ⟨-, -, u, hu, rfl⟩
  · rcases hostTurn_registers s with ⟨-, -, hp⟩ | ⟨-, -, hp⟩ <;> rw [hp]
    · exact hb
    · rfl
  · exact hb
  · rw [slotEnd_eq]
    exact (slot_keeps hu).brk.trans hb

/-- Settles O21, by `exec_cases`: the frame keeps DIAG. -/
theorem diagnosticIsAppendOnly : Obligations.DiagnosticIsAppendOnly := by
  intro i s t h
  rcases exec_cases h with ⟨op, rfl, rfl⟩ | ⟨hi, hf⟩
  · rw [raiseUnknownOpcode_eq]
  · rw [hf.diag]
    split
    · exact absurd rfl (hi _)
    · exact (List.append_nil _).symm

/-- Settles O29, by `exec_cases`: the frame of an instruction of the table. -/
theorem registerFrame : Obligations.RegisterFrame := by
  intro i s t h
  rcases exec_cases h with ⟨op, rfl, rfl⟩ | ⟨-, hf⟩
  · rw [raiseUnknownOpcode_eq]
    exact ⟨fun r _ => by cases r <;> rfl, rfl, rfl, rfl, fun hi => absurd rfl (hi op)⟩
  · exact ⟨hf.regs, hf.budget, hf.cfg, hf.script, fun _ => ⟨hf.run, hf.diag⟩⟩

/-- Settles O1, both states being a Reset of some state. -/
theorem resetStateHasSpecifiedValues : Obligations.ResetStateHasSpecifiedValues := by
  intro s t h
  have hcyc : t = hostReset s → t.cyc = s.cyc := fun heq => heq ▸ rfl
  obtain ⟨u, rfl⟩ : ∃ u, t = hostReset u := by
    rcases h with h | h
    · exact ⟨State.reset, h⟩
    · exact ⟨s, h⟩
  exact ⟨rfl, rfl, rfl, rfl, rfl, rfl, hostReset_flags u, fun _ => rfl, rfl, rfl, hcyc⟩

/-- Settles O16, the budget clauses being those of the state before. -/
theorem invariantHoldsAfterReset : Obligations.InvariantHoldsAfterReset :=
  ⟨inv_reset, fun _ => ⟨rfl, rfl, rfl, rfl, rfl, rfl, rfl⟩, baseQuiet_hostReset,
    fun _ => inv_hostReset⟩

/-- Settles O36, the number by its 128 cases, the bits by definition. -/
theorem packedFlagByte : Obligations.PackedFlagByte := ⟨pack_toNat, unpack_eq_pulledFlags⟩
end

section
/-! SUPPORT. No meaning reads CYC, DIAG or the host's operations (10_state.md R17, R19;
42_dispatch_loop.md R80): each commutes with displacing all three. -/

namespace Sys2Proof.Proofs

open Sys2Proof.Machine Sys2Proof.Safety Sys2Proof.Laws

/-- What no meaning reads, displaced: `cycles` more in CYC, `older` in front of DIAG and `ops` in
front of the host's operations. -/
structure Displacement where
  cycles : Int
  older  : List Byte
  ops    : List HostOp

/-- The displaced state. -/
def Displacement.apply (δ : Displacement) (s : State) : State :=
  { s with cyc := s.cyc + δ.cycles, diag := δ.older ++ s.diag, script := δ.ops ++ s.script }

/-- The displaced answer. -/
def Displacement.answer (δ : Displacement) : Result → Result
  | .next t => .next (δ.apply t)
  | .fault r => .fault r
  | .refused r => .refused r

section
variable (δ : Displacement) (s : State)

/-! ### What is read of a displaced state -/

@[simp] theorem displaced_pc : (δ.apply s).pc = s.pc := rfl
@[simp] theorem displaced_sp : (δ.apply s).sp = s.sp := rfl
@[simp] theorem displaced_a : (δ.apply s).a = s.a := rfl
@[simp] theorem displaced_x : (δ.apply s).x = s.x := rfl
@[simp] theorem displaced_y : (δ.apply s).y = s.y := rfl
@[simp] theorem displaced_p : (δ.apply s).p = s.p := rfl
@[simp] theorem displaced_cfg : (δ.apply s).cfg = s.cfg := rfl
@[simp] theorem displaced_getReg (r : Reg) : getReg (δ.apply s) r = getReg s r := by cases r <;> rfl
@[simp] theorem displaced_memRead (addr : Addr) : memRead (δ.apply s) addr = memRead s addr := rfl

/-! ### Updates of a displaced state -/

@[simp] theorem displaced_setPc (v : Addr) : (δ.apply s).setPc v = δ.apply (s.setPc v) := rfl
@[simp] theorem displaced_setSp (v : Byte) : (δ.apply s).setSp v = δ.apply (s.setSp v) := rfl
@[simp] theorem displaced_setA (v : Byte) : (δ.apply s).setA v = δ.apply (s.setA v) := rfl
@[simp] theorem displaced_setP (v : Flags) : (δ.apply s).setP v = δ.apply (s.setP v) := rfl
@[simp] theorem displaced_setNZ (v : Byte) : (δ.apply s).setNZ v = δ.apply (s.setNZ v) := rfl
@[simp] theorem displaced_putReg (r : Reg) (v : Byte) :
    putReg r v (δ.apply s) = δ.apply (putReg r v s) := by cases r <;> rfl
@[simp] theorem displaced_memWrite (addr : Addr) (v : Byte) :
    memWrite (δ.apply s) addr v = δ.apply (memWrite s addr v) := rfl

@[simp] theorem displaced_charge (n : Nat) : (δ.apply s).charge n = δ.apply (s.charge n) := by
  have hcyc : s.cyc + δ.cycles - n = s.cyc - n + δ.cycles := by omega
  simp only [State.charge, Displacement.apply, hcyc]

/-! ### The shared operations -/

@[simp] theorem displaced_pastByte : pastByte (δ.apply s) = δ.apply (pastByte s) := by
  simp [pastByte, fetchByte]

@[simp] theorem displaced_pastWord : pastWord (δ.apply s) = δ.apply (pastWord s) := by
  simp [pastWord, fetchWord, fetchByte]

@[simp] theorem displaced_implied : implied (δ.apply s) = δ.apply (implied s) := by simp [implied]

@[simp] theorem displaced_readByte (addr : Addr) :
    readByte (δ.apply s) addr = ((readByte s addr).1, δ.apply (readByte s addr).2) := by
  simp [readByte]

@[simp] theorem displaced_writeByte (addr : Addr) (v : Byte) :
    writeByte (δ.apply s) addr v = δ.apply (writeByte s addr v) := by simp [writeByte]

@[simp] theorem displaced_pushByte (v : Byte) :
    pushByte (δ.apply s) v = δ.apply (pushByte s v) := by
  simp [pushByte]

@[simp] theorem displaced_pushWord (w : Addr) :
    pushWord (δ.apply s) w = δ.apply (pushWord s w) := by
  simp [pushWord]

@[simp] theorem displaced_pullByte :
    pullByte (δ.apply s) = ((pullByte s).1, δ.apply (pullByte s).2) := by simp [pullByte]

@[simp] theorem displaced_pullWord :
    pullWord (δ.apply s) = ((pullWord s).1, δ.apply (pullWord s).2) := by simp [pullWord]

@[simp] theorem displaced_memReadWord (addr : Addr) :
    memReadWord (δ.apply s) addr = memReadWord s addr := rfl

@[simp] theorem displaced_enterSoftwareInterrupt :
    enterSoftwareInterrupt (δ.apply s) = δ.apply (enterSoftwareInterrupt s) := by
  simp [enterSoftwareInterrupt]

@[simp] theorem displaced_returnFromInterrupt :
    returnFromInterrupt (δ.apply s) = δ.apply (returnFromInterrupt s) := by
  simp [returnFromInterrupt]

/-! ### Addressing -/

@[simp] theorem displaced_indexed (acc : Access) (base : Addr) (index : Byte) :
    indexed acc base index (δ.apply s) =
      ((indexed acc base index s).1, δ.apply (indexed acc base index s).2) := by
  cases acc with
  | reading =>
    simp only [indexed, displaced_charge]
    split <;> rfl
  | writing => simp [indexed]

@[simp] theorem displaced_zeroPagePointer (z : Byte) :
    zeroPagePointer z (δ.apply s) = ((zeroPagePointer z s).1, δ.apply (zeroPagePointer z s).2) := by
  simp [zeroPagePointer]

@[simp] theorem displaced_resolve (acc : Access) (m : Mode) :
    resolve acc m (δ.apply s) = ((resolve acc m s).1, δ.apply (resolve acc m s).2) := by
  cases m with
  | zp d => simp [resolve, zeroPage]
  | zpX d => simp [resolve, zeroPageX, zeroPageIndexed]
  | zpY d => simp [resolve, zeroPageY, zeroPageIndexed]
  | abs w => simp [resolve, absolute]
  | absX w => simp [resolve, absoluteX]
  | absY w => simp [resolve, absoluteY]
  | indX d => simp [resolve, indirectX]
  | indY d => simp [resolve, indirectY]

@[simp] theorem displaced_operand (src : Source) :
    operand src (δ.apply s) = ((operand src s).1, δ.apply (operand src s).2) := by
  cases src with
  | imm v => simp [operand, immediate]
  | mem m => simp [operand]

/-! ### Answers -/

@[simp] theorem answer_next (t : State) : δ.answer (.next t) = .next (δ.apply t) := rfl

theorem displaced_stackGuard (wraps : Bool) {t t' : State} (h : t' = δ.apply t) :
    stackGuard (δ.apply s) wraps (.next t') = δ.answer (stackGuard s wraps (.next t)) := by
  unfold stackGuard
  rw [displaced_cfg, h]
  split <;> rfl

theorem displaced_decimalGuard {t t' : State} (h : t' = δ.apply t) :
    decimalGuard (δ.apply s) (.next t') = δ.answer (decimalGuard s (.next t)) := by
  unfold decimalGuard
  rw [displaced_cfg, displaced_p, h]
  split <;> rfl

theorem displaced_addWith (f : Byte → Byte) (src : Source) :
    addWith f src (δ.apply s) = δ.answer (addWith f src s) :=
  displaced_decimalGuard δ s (by simp)

theorem displaced_logic (f : Byte → Byte → Byte) (src : Source) :
    logic f src (δ.apply s) = δ.answer (logic f src s) := by simp [logic]

theorem displaced_compareWith (r : Byte) (src : Source) :
    compareWith r src (δ.apply s) = δ.answer (compareWith r src s) := by simp [compareWith]

theorem displaced_bitTest (src : Source) : bitTest src (δ.apply s) = δ.answer (bitTest src s) := by
  simp [bitTest]

theorem displaced_store (m : Mode) (v : Byte) : store m v (δ.apply s) = δ.answer (store m v s) := by
  simp [store]

theorem displaced_rmwA (f : RmwFunction) : rmwA f (δ.apply s) = δ.answer (rmwA f s) := by
  simp [rmwA]

theorem displaced_rmwMem (f : RmwFunction) (m : Mode) :
    rmwMem f m (δ.apply s) = δ.answer (rmwMem f m s) := by simp [rmwMem]

theorem displaced_branch (cond : Bool) (d : Byte) :
    branch cond d (δ.apply s) = δ.answer (branch cond d s) := by
  simp only [branch, relative, displaced_pastByte, displaced_pc, displaced_charge,
    ← apply_ite δ.apply]
  split <;> rfl

theorem displaced_unknown (op : Byte) :
    raiseUnknownOpcode (δ.apply s) op = δ.apply (raiseUnknownOpcode s op) := by
  simp only [raiseUnknownOpcode_eq, Displacement.apply, List.append_assoc]

/-! ### Every instruction -/

/-- No instruction reads what is displaced. -/
theorem exec_displaced (i : Instr) : exec i (δ.apply s) = δ.answer (exec i s) := by
  rcases form_cases i with ⟨r, src, h⟩ | ⟨r, m, h⟩ | ⟨dst, src, h⟩ | rfl | ⟨src, h⟩ | ⟨src, h⟩ |
    ⟨op, src, h⟩ | ⟨r, src, h⟩ | ⟨src, h⟩ | ⟨op, h⟩ | ⟨op, m, h⟩ | ⟨r, k, h⟩ | ⟨f, v, d, h⟩ |
    ⟨f, v, h⟩ | ⟨w, rfl⟩ | ⟨w, rfl⟩ | ⟨w, rfl⟩ | rfl | rfl | rfl | rfl | rfl | rfl | rfl | rfl |
    ⟨op, rfl⟩
  · simp [exec_load h]
  · simp [exec_store h, displaced_store]
  · simp [exec_transfer h]
  · simp [exec_txs]
  · simp [exec_adc h, displaced_addWith]
  · simp [exec_sbc h, displaced_addWith]
  · simp [exec_logic h, displaced_logic]
  · simp [exec_compare h, displaced_compareWith]
  · simp [exec_bit h, displaced_bitTest]
  · simp [exec_rmwAcc h, displaced_rmwA]
  · simp [exec_rmw h, displaced_rmwMem]
  · simp [exec_indexStep h]
  · simp [exec_branch h, displaced_branch, taken]
  · simp [exec_flag h]
  · simp [exec_jmpAbs, jump, absolute]
  · simp [exec_jmpInd, jump, indirect]
  · exact displaced_stackGuard δ s _ (by simp [absolute])
  · exact displaced_stackGuard δ s _ (by simp)
  · exact displaced_stackGuard δ s _ (by simp)
  · exact displaced_stackGuard δ s _ (by simp)
  · simp [exec_nop]
  · exact displaced_stackGuard δ s _ (by simp)
  · exact displaced_stackGuard δ s _ (by simp)
  · exact displaced_stackGuard δ s _ (by simp)
  · exact displaced_stackGuard δ s _ (by simp)
  · simp [exec_unknown, displaced_unknown]

end

/-! ### One of them changed -/

/-- Every state is the same state with an empty DIAG, displaced. -/
theorem displaced_diag (s : State) (d : List Byte) :
    Displacement.apply ⟨0, d, []⟩ { s with diag := [] } = { s with diag := d } := by
  simp [Displacement.apply]

/-- With another DIAG an instruction answers the same but for DIAG. -/
theorem exec_withDiag {i : Instr} {s t : State} (d : List Byte) (h : exec i s = .next t) :
    ∃ d', exec i { s with diag := d } = .next { t with diag := d' } := by
  have hs := exec_displaced ⟨0, s.diag, []⟩ { s with diag := [] } i
  have hd := exec_displaced ⟨0, d, []⟩ { s with diag := [] } i
  rw [displaced_diag] at hs hd
  rw [h] at hs
  cases hu : exec i { s with diag := [] } with
  | next u =>
    rw [hu] at hs hd
    cases hs
    exact ⟨d ++ u.diag, by simpa [Displacement.apply] using hd⟩
  | fault r => cases r
  | refused r =>
    rw [hu] at hs
    cases hs

theorem displaced_cycles (s : State) (k : Int) :
    Displacement.apply ⟨k, [], []⟩ s = { s with cyc := s.cyc + k } := rfl

/-- The host's operations read DIAG in no case: a Reset empties it, the others keep it. -/
theorem hostOp_withDiag (op : HostOp) (s : State) (d : List Byte) :
    ∃ d', hostOp op { s with diag := d } = { hostOp op s with diag := d' } := by
  cases op with
  | reset => exact ⟨[], rfl⟩
  | poke addr v => exact ⟨d, rfl⟩
  | execute budget => exact ⟨d, rfl⟩

theorem hostTurn_withDiag (s : State) (d : List Byte) :
    ∃ d', hostTurn { s with diag := d } = { hostTurn s with diag := d' } := by
  rcases hostTurn_cases s with ⟨hs, ht⟩ | ⟨op, rest, hs, ht⟩ <;> rw [ht]
  · exact ⟨d, hostTurn_nil (s := { s with diag := d }) hs⟩
  · rw [hostTurn_cons (s := { s with diag := d }) hs]
    exact hostOp_withDiag op { s with script := rest } d

end Sys2Proof.Proofs

open Sys2Proof Sys2Proof.Machine Sys2Proof.Safety Sys2Proof.Laws Sys2Proof.Proofs

/-- Settles O22, by the ways a step goes: the slot by `exec_withDiag`, the host's turn by
`hostTurn_withDiag`. -/
theorem diagnosticInfluencesNothing : Obligations.DiagnosticInfluencesNothing := by
  intro s t d h
  rcases step_cases h with ⟨ho, rfl⟩ | ⟨hi, hc, rfl⟩ | ⟨hi, hc, u, hu, rfl⟩
  · obtain ⟨d', hd⟩ := hostTurn_withDiag s d
    have ho' : OutsideExecute { s with diag := d } := ho
    exact ⟨d', by rw [step_outside ho', hd]⟩
  · have hi' : InsideExecute { s with diag := d } := hi
    exact ⟨d, by rw [step_inside hi', if_pos hc]; rfl⟩
  · have hi' : InsideExecute { s with diag := d } := hi
    obtain ⟨d', hd⟩ := exec_withDiag d hu
    refine ⟨d', ?_⟩
    have hd' : exec (instrAt { s with diag := d }) (enterSlot { s with diag := d }) = _ := hd
    rw [step_inside hi', if_neg (not_le.mpr hc), hd', slotEnd_eq, endSlot, slotEnd_eq]

/-- Settles O23, by displacing CYC alone. -/
theorem cycleBudgetIsInvisible : Obligations.CycleBudgetIsInvisible := by
  intro i s k
  have hk := exec_displaced ⟨k, [], []⟩ s i
  rw [displaced_cycles] at hk
  refine ⟨fun t ht => ?_, fun r hr => ?_⟩
  · rw [hk, ht]
    rfl
  · rw [hk, hr]
    rfl
end

section
/-! SUPPORT. Which bytes of memory an instruction changes (20_memory.md R23, R27): the loads, the
arithmetic, the jumps and the pulls none, the others those of their stores and pushes. And what a
word written to memory reads as (20_memory.md R28, R29). -/

namespace Sys2Proof.Proofs

open Sys2Proof.Machine Sys2Proof.Safety Sys2Proof.Laws

/-! ### Operations that keep the memory -/

@[simp] theorem implied_mem (s : State) : (implied s).mem = s.mem := rfl
@[simp] theorem readByte_mem (s : State) (addr : Addr) : (readByte s addr).2.mem = s.mem := rfl

@[simp] theorem putReg_mem (r : Reg) (v : Byte) (s : State) : (putReg r v s).mem = s.mem := by
  cases r <;> rfl

@[simp] theorem resolve_mem (acc : Access) (m : Mode) (s : State) :
    (resolve acc m s).2.mem = s.mem := by
  obtain ⟨n, h⟩ := resolve_state acc m s
  rw [h]

@[simp] theorem operand_mem (src : Source) (s : State) : (operand src s).2.mem = s.mem := by
  obtain ⟨n, h⟩ := operand_state src s
  rw [h]

/-! ### Reading beside a store or a push -/

theorem memRead_congr {s t : State} (h : t.mem = s.mem) (addr : Addr) :
    memRead t addr = memRead s addr := by
  rw [memRead, h, memRead]

theorem memRead_writeByte_other (s : State) {addr other : Addr} (v : Byte) (hne : other ≠ addr) :
    memRead (writeByte s addr v) other = memRead s other := memRead_memWrite_other s v hne

theorem memRead_pushByte_other (s : State) (v : Byte) {other : Addr}
    (hne : other ≠ stackAddr s.sp) : memRead (pushByte s v) other = memRead s other :=
  memRead_memWrite_other s v hne

theorem memRead_pushWord_other (s : State) (w : Addr) {other : Addr}
    (hlow : other ≠ stackAddr s.sp) (hhigh : other ≠ stackAddr (s.sp + 1)) :
    memRead (pushWord s w) other = memRead s other :=
  (memRead_pushByte_other (pushByte s (lowByte w)) (highByte w) hhigh).trans
    (memRead_pushByte_other s (lowByte w) hlow)

theorem memRead_enterSoftwareInterrupt_other (s : State) {other : Addr}
    (hlow : other ≠ stackAddr s.sp) (hhigh : other ≠ stackAddr (s.sp + 1))
    (hflags : other ≠ stackAddr (s.sp + 2)) :
    memRead (enterSoftwareInterrupt s) other = memRead s other := by
  have hsp : (pushWord s s.pc).sp = s.sp + 2 := by rw [pushWord_eq]
  calc memRead (enterSoftwareInterrupt s) other
      = memRead (pushByte (pushWord s s.pc) (pushedFlags s.p)) other :=
        memRead_congr (by rw [enterSoftwareInterrupt_eq]) other
    _ = memRead (pushWord s s.pc) other :=
        memRead_pushByte_other _ _ (by rw [hsp]; exact hflags)
    _ = memRead s other := memRead_pushWord_other s s.pc hlow hhigh

/-! ### The addresses stored to -/

theorem storedAddrs_store {i : Instr} {r : Reg} {m : Mode} (h : storeForm i = some (r, m))
    (s : State) : storedAddrs i s = [(resolve .writing m s).1] := by
  simp [storedAddrs, storedMode, h]

theorem storedAddrs_rmw {i : Instr} {op : RmwOp} {m : Mode} (h : rmwForm i = some (op, m))
    (s : State) : storedAddrs i s = [(resolve .writing m s).1] := by
  have hstore : storeForm i = none := by cases i <;> cases h <;> rfl
  simp [storedAddrs, storedMode, hstore, h]

/-! ### The memory an answer leaves -/

/-- Every next state answered from `s` reads as `s` does outside `addrs`. -/
def StoresOnlyAt (addrs : List Addr) (s : State) (result : Result) : Prop :=
  ∀ t, result = .next t → ∀ addr, addr ∉ addrs → memRead t addr = memRead s addr

namespace StoresOnlyAt

variable {addrs : List Addr} {s : State}

theorem next {t : State} (h : ∀ addr, addr ∉ addrs → memRead t addr = memRead s addr) :
    StoresOnlyAt addrs s (.next t) := by
  rintro _ ⟨⟩
  exact h

theorem of_mem_eq {t : State} (h : t.mem = s.mem) : StoresOnlyAt addrs s (.next t) :=
  next fun addr _ => memRead_congr h addr

theorem stackGuard {result : Result} (h : StoresOnlyAt addrs s result) (u : State)
    (wraps : Bool) : StoresOnlyAt addrs s (stackGuard u wraps result) := by
  rcases stackGuard_cases u wraps result with ⟨heq, -⟩ | ⟨heq, -⟩ <;> rw [heq]
  · exact h
  · rintro _ ⟨⟩

theorem decimalGuard {result : Result} (h : StoresOnlyAt addrs s result) (u : State) :
    StoresOnlyAt addrs s (decimalGuard u result) := by
  rcases decimalGuard_cases u result with ⟨heq, -⟩ | ⟨heq, -⟩ <;> rw [heq]
  · exact h
  · rintro _ ⟨⟩

/-- ADC and SBC read their operand and store nothing. -/
theorem addWith (g : Byte → Byte) (src : Source) : StoresOnlyAt addrs s (addWith g src s) :=
  .decimalGuard (.of_mem_eq (by simp)) s

/-- A branch moves PC and charges, taken or not. -/
theorem branch (cond : Bool) (d : Byte) : StoresOnlyAt addrs s (branch cond d s) := by
  unfold Machine.branch
  dsimp only
  split
  · refine .of_mem_eq ?_
    split <;> rfl
  · exact .of_mem_eq rfl

/-- A store writes the one byte at its effective address. -/
theorem store (m : Mode) (v : Byte) :
    StoresOnlyAt [(resolve .writing m s).1] s (store m v s) := by
  refine .next fun addr hne => ?_
  rw [memRead_writeByte_other _ _ (List.ne_of_not_mem_cons hne)]
  exact memRead_congr (by simp) addr

/-- A read-modify-write writes back to the byte it read (47_ext_shift_incdec.md R118). -/
theorem rmwMem (f : RmwFunction) (m : Mode) :
    StoresOnlyAt [(resolve .writing m s).1] s (rmwMem f m s) := by
  refine .next fun addr hne => ?_
  rw [memRead_writeByte_other _ _ (List.ne_of_not_mem_cons hne)]
  exact memRead_congr (by simp) addr

end StoresOnlyAt

/-! ### The instructions that push -/

theorem jsr_storesOnlyAt (w : Addr) (s : State) :
    StoresOnlyAt (storedAddrs (.jsr w) s) s (exec (.jsr w) s) := by
  refine .stackGuard (.next fun addr hnot => ?_) s _
  simp only [storedAddrs_jsr, BitVec.add_zero, List.mem_cons,
    List.not_mem_nil, or_false, not_or] at hnot
  obtain ⟨hlow, hhigh⟩ := hnot
  simp only [memRead_charge, memRead_setPc]
  exact memRead_pushWord_other (pastWord s) _ hlow hhigh

theorem brk_storesOnlyAt (s : State) : StoresOnlyAt (storedAddrs .brk s) s (exec .brk s) := by
  refine .stackGuard (.next fun addr hnot => ?_) s _
  simp only [storedAddrs_brk, BitVec.add_zero, List.mem_cons,
    List.not_mem_nil, or_false, not_or] at hnot
  obtain ⟨hlow, hhigh, hflags⟩ := hnot
  exact memRead_enterSoftwareInterrupt_other (pastByte s) hlow hhigh hflags

/-- PHA and PHP push one byte after one internal cycle (49_ext_stack_flags.md R143, R145). -/
theorem pushByte_storesOnlyAt (s : State) (v : Byte) :
    StoresOnlyAt [stackAddr (s.sp + BitVec.ofNat 8 0)] s (.next (pushByte (s.charge 1) v)) := by
  refine .next fun addr hnot => memRead_pushByte_other (s.charge 1) v ?_
  rw [BitVec.add_zero] at hnot
  exact List.ne_of_not_mem_cons hnot

/-! ### Every instruction -/

/-- An instruction stores nowhere but at `storedAddrs`. -/
theorem exec_storesOnlyAt (i : Instr) (s : State) :
    StoresOnlyAt (storedAddrs i s) s (exec i s) := by
  rcases form_cases i with ⟨r, src, h⟩ | ⟨r, m, h⟩ | ⟨dst, src, h⟩ | rfl | ⟨src, h⟩ | ⟨src, h⟩ |
    ⟨op, src, h⟩ | ⟨r, src, h⟩ | ⟨src, h⟩ | ⟨op, h⟩ | ⟨op, m, h⟩ | ⟨r, k, h⟩ | ⟨f, v, d, h⟩ |
    ⟨f, v, h⟩ | ⟨w, rfl⟩ | ⟨w, rfl⟩ | ⟨w, rfl⟩ | rfl | rfl | rfl | rfl | rfl | rfl | rfl | rfl |
    ⟨op, rfl⟩
  · rw [exec_load h]
    exact .of_mem_eq (by simp)
  · rw [exec_store h, storedAddrs_store h]
    exact .store m _
  · rw [exec_transfer h]
    exact .of_mem_eq (by simp)
  · exact .of_mem_eq rfl
  · rw [exec_adc h]
    exact .addWith _ src
  · rw [exec_sbc h]
    exact .addWith _ src
  · rw [exec_logic h]
    exact .of_mem_eq (by simp)
  · rw [exec_compare h]
    exact .of_mem_eq (by simp)
  · rw [exec_bit h]
    exact .of_mem_eq (by simp)
  · rw [exec_rmwAcc h]
    exact .of_mem_eq (by simp)
  · rw [exec_rmw h, storedAddrs_rmw h]
    exact .rmwMem _ m
  · rw [exec_indexStep h]
    exact .of_mem_eq (by simp)
  · rw [exec_branch h]
    exact .branch _ d
  · rw [exec_flag h]
    exact .of_mem_eq (by simp)
  · exact .of_mem_eq rfl
  · exact .of_mem_eq rfl
  · exact jsr_storesOnlyAt w s
  · exact .stackGuard (.of_mem_eq rfl) s _
  · exact brk_storesOnlyAt s
  · exact .stackGuard (.of_mem_eq rfl) s _
  · exact .of_mem_eq rfl
  · rw [storedAddrs_pha]
    exact .stackGuard (pushByte_storesOnlyAt s _) s _
  · rw [storedAddrs_php]
    exact .stackGuard (pushByte_storesOnlyAt s _) s _
  · exact .stackGuard (.of_mem_eq rfl) s _
  · exact .stackGuard (.of_mem_eq rfl) s _
  · rw [exec_unknown, raiseUnknownOpcode_eq]
    exact .of_mem_eq rfl

/-! ### A word in memory -/

section
variable {s : State} (h : s.mem.wf = true) (addr v : Addr)
include h

/-- The two cells of a word differ, also at 0xFFFF, whose successor is 0x0000. -/
theorem memRead_memWriteWord_low : memRead (memWriteWord s addr v) addr = lowByte v := by
  have hne : addr ≠ addr + 1 := by bv_omega
  rw [memWriteWord, memRead_memWrite_other _ _ hne, memRead_memWrite_same h]

theorem memRead_memWriteWord_high :
    memRead (memWriteWord s addr v) (addr + 1) = highByte v :=
  memRead_memWrite_same (memWrite_wf h addr (lowByte v)) (addr + 1) (highByte v)

theorem memReadWord_memWriteWord : memReadWord (memWriteWord s addr v) addr = v := by
  rw [memReadWord, memRead_memWriteWord_high h, memRead_memWriteWord_low h,
    joinBytes_highByte_lowByte]

end

theorem memRead_memWriteWord_other (s : State) {addr other : Addr} (v : Addr)
    (hlow : other ≠ addr) (hhigh : other ≠ addr + 1) :
    memRead (memWriteWord s addr v) other = memRead s other :=
  (memRead_memWrite_other _ _ hhigh).trans (memRead_memWrite_other s _ hlow)

end Sys2Proof.Proofs

open Sys2Proof Sys2Proof.Machine Sys2Proof.Safety Sys2Proof.Laws Sys2Proof.Proofs

/-- Settles O31, by the families of instructions: those that store at an effective address, those
that push, and those that leave the memory alone. -/
theorem memoryFrame : Obligations.MemoryFrame := exec_storesOnlyAt

/-- Settles O37, from the two cells a word is written to. -/
theorem wordAccessIsLittleEndian : Obligations.WordAccessIsLittleEndian := by
  intro s addr v h
  refine ⟨memReadWord_memWriteWord h addr v, ?_, ?_, fun _ => memRead_memWriteWord_other s v⟩
  · rw [memRead_memWriteWord_low h, lowByte_toNat]
  · rw [memRead_memWriteWord_high h, highByte_toNat]

/-- Settles O4: the host's turn is `memWrite` on the rest of the operations. -/
theorem pokeWritesOneCell : Obligations.PokeWritesOneCell := by
  intro s addr v rest hout hscript h
  refine ⟨memWrite { s with script := rest } addr v, ?_, memRead_memWrite_same h addr v,
    fun _ => memRead_memWrite_other _ v, rfl⟩
  rw [step_outside hout, hostTurn_cons hscript, hostOp]
end

section
/-! SUPPORT. The dispatch table as the meeting point of the decoder and the encoder: what an entry
reads after its opcode byte, that the encoder writes the same bytes, and that every instruction has
its entry (30_encoding.md R42 to R47). -/

namespace Sys2Proof.Proofs

open Sys2Proof.Machine Sys2Proof.Safety Sys2Proof.Laws

/-- With the operand bytes `operands` an entry of the form gives the instruction (30_encoding.md
R42, R44). -/
inductive FormReads : OperandForm → List Byte → Instr → Prop where
  | none (i : Instr) : FormReads (.none i) [] i
  | byte (f : Byte → Instr) (d : Byte) : FormReads (.byte f) [d] (f d)
  | word (f : Addr → Instr) (w : Addr) : FormReads (.word f) [lowByte w, highByte w] (f w)

/-! ### The dispatch table -/

set_option maxRecDepth 4000 in
/-- Sorted, the bytes of 30_encoding.md R47 and the opcode bytes of the table are every byte, once. -/
theorem opcodes_insertionSort :
    (undocumentedOpcodes ++ opcodeTable.map (·.opcode)).insertionSort (· ≤ ·) =
      List.ofFn BitVec.ofFin := by decide

theorem opcodes_perm :
    (undocumentedOpcodes ++ opcodeTable.map (·.opcode)).Perm (List.ofFn BitVec.ofFin) :=
  (List.perm_insertionSort (· ≤ ·) _).symm.trans (.of_eq opcodes_insertionSort)

theorem opcodes_nodup : (undocumentedOpcodes ++ opcodeTable.map (·.opcode)).Nodup :=
  opcodes_perm.nodup_iff.mpr (List.nodup_ofFn.mpr fun _ _ h => congrArg BitVec.toFin h)

/-- Under EXT exactly the listed bytes have no row. -/
theorem not_mem_undocumentedOpcodes_iff (op : Byte) :
    op ∉ undocumentedOpcodes ↔ ∃ row ∈ opcodeTable, row.opcode = op := by
  have hall : op ∈ undocumentedOpcodes ++ opcodeTable.map (·.opcode) :=
    opcodes_perm.mem_iff.mpr (List.mem_ofFn.mpr ⟨op.toFin, rfl⟩)
  rw [List.mem_append, List.mem_map] at hall
  refine ⟨hall.resolve_left, ?_⟩
  rintro ⟨row, hmem, rfl⟩ hun
  exact List.disjoint_of_nodup_append opcodes_nodup hun (List.mem_map_of_mem hmem)

/-- Under BASE exactly the four bytes of 30_encoding.md R45 have a row. -/
theorem mem_baseOpcodes_iff (op : Byte) :
    op ∈ baseOpcodes ↔ ∃ row ∈ opcodeTable, row.inBase = true ∧ row.opcode = op := by
  have hrows : baseOpcodes.Perm ((opcodeTable.filter (·.inBase)).map (·.opcode)) := by
    rw [baseRows]
    decide
  rw [hrows.mem_iff, List.mem_map]
  simp only [List.mem_filter, and_assoc]

/-! ### Looking a byte up -/

theorem mem_opcodeTable_of_lookupOpcode {t : Table} {op : Byte} {row : OpcodeRow}
    (h : lookupOpcode t op = some row) :
    row ∈ opcodeTable ∧ row.opcode = op ∧ (row.inBase || t == .ext) = true := by
  have hp := List.find?_some h
  rw [Bool.and_eq_true, beq_iff_eq] at hp
  exact ⟨List.mem_of_find?_eq_some h, hp⟩

/-- The table has one row for each opcode byte, so the lookup finds every row it may find. -/
theorem lookupOpcode_eq_some_iff {t : Table} {op : Byte} {row : OpcodeRow} :
    lookupOpcode t op = some row ↔
      row ∈ opcodeTable ∧ row.opcode = op ∧ (row.inBase || t == .ext) = true := by
  refine ⟨mem_opcodeTable_of_lookupOpcode, ?_⟩
  rintro ⟨hmem, rfl, ht⟩
  cases hfind : lookupOpcode t row.opcode with
  | none => exact absurd ht (by simpa using List.find?_eq_none.mp hfind row hmem)
  | some other =>
    obtain ⟨hother, hop, -⟩ := mem_opcodeTable_of_lookupOpcode hfind
    rw [List.inj_on_of_nodup_map opcodes_nodup.of_append_right hother hmem hop]

theorem lookupOpcode_eq_none_iff {t : Table} {op : Byte} :
    lookupOpcode t op = none ↔ NoEntry t op := by
  simp only [Option.eq_none_iff_forall_ne_some, ne_eq, lookupOpcode_eq_some_iff]
  cases t with
  | base => simp [NoEntry, mem_baseOpcodes_iff, and_comm]
  | ext => simpa [NoEntry] using (not_mem_undocumentedOpcodes_iff op).not.symm

/-! ### What exists under TABLE -/

theorem wellFormed_unknown_iff {t : Table} {op : Byte} :
    (Instr.unknown op).wellFormed t = true ↔ NoEntry t op := by
  cases t <;> simp [Instr.wellFormed, NoEntry]

theorem wellFormed_known {i : Instr} (h : ∀ op, i ≠ .unknown op) (t : Table) :
    i.wellFormed t = (i.inBase || t == .ext) := by
  unfold Instr.wellFormed
  split
  · exact absurd rfl (h _)
  · simp
  · exact absurd rfl (h _)
  · simp

/-! ### The table and the encoder -/

/-- The encoder writes what the row reads, and the row says rightly whether BASE has the
instruction. -/
structure RowAgrees (row : OpcodeRow) (operands : List Byte) (i : Instr) : Prop where
  encoded : encode i = row.opcode :: operands
  inBase  : i.inBase = row.inBase
  known   : ∀ op, i ≠ .unknown op

/-- Every row agrees with the encoder, checked row by row. -/
theorem opcodeTable_agrees : ∀ row ∈ opcodeTable, ∀ operands i,
    FormReads row.form operands i → RowAgrees row operands i := by
  simp only [opcodeTable, opcodeRows0, opcodeRows1, opcodeRows2, opcodeRows3, opcodeRows4,
    opcodeRows5, opcodeRows6, opcodeRows7, List.forall_mem_append, List.forall_mem_cons,
    List.not_mem_nil, false_imp_iff, implies_true, and_true]
  and_intros
  all_goals
    rintro _ _ ⟨⟩
    exact ⟨rfl, rfl, nofun⟩

/-- Every instruction but the unknown ones has a row, found by the first byte of its encoding and
reading the others. -/
theorem exists_row_of_known {i : Instr} (h : ∀ op, i ≠ .unknown op) :
    ∃ op operands row, encode i = op :: operands ∧ lookupOpcode .ext op = some row ∧
      FormReads row.form operands i := by
  cases i
  case unknown op => exact absurd rfl (h op)
  all_goals exact ⟨_, _, _, rfl, rfl, by constructor⟩

/-- The row of an instruction is found under every TABLE that has the instruction. -/
theorem exists_row_of_wellFormed {t : Table} {i : Instr} (hk : ∀ op, i ≠ .unknown op)
    (hw : i.wellFormed t = true) : ∃ op operands row, encode i = op :: operands ∧
      lookupOpcode t op = some row ∧ FormReads row.form operands i := by
  obtain ⟨op, operands, row, henc, hrow, hform⟩ := exists_row_of_known hk
  obtain ⟨hmem, hop, -⟩ := mem_opcodeTable_of_lookupOpcode hrow
  rw [wellFormed_known hk, (opcodeTable_agrees row hmem operands i hform).inBase] at hw
  exact ⟨op, operands, row, henc, lookupOpcode_eq_some_iff.mpr ⟨hmem, hop, hw⟩, hform⟩

/-! ### The table and the decoder -/

section
variable {t : Table} {op : Byte}

theorem decodeBytes_of_noEntry (h : lookupOpcode t op = none) (b1 b2 : Byte) :
    decodeBytes t op b1 b2 = .unknown op := by
  simp only [decodeBytes, h]

theorem decodeBytes_of_row {row : OpcodeRow} (h : lookupOpcode t op = some row) (b1 b2 : Byte) :
    ∃ operands, FormReads row.form operands (decodeBytes t op b1 b2) := by
  simp only [decodeBytes, h]
  cases row.form with
  | none i => exact ⟨_, .none i⟩
  | byte f => exact ⟨_, .byte f b1⟩
  | word f => exact ⟨_, .word f (joinBytes b2 b1)⟩

theorem decode_of_noEntry (h : lookupOpcode t op = none) (rest : List Byte) :
    decode t (op :: rest) = .ok (.unknown op, rest) := by
  simp [decode, operandLength, decodeBytes, h]

/-- With an entry the operand bytes of its form are split off. -/
theorem decode_of_row {row : OpcodeRow} {operands : List Byte} {i : Instr}
    (h : lookupOpcode t op = some row) (hform : FormReads row.form operands i)
    (rest : List Byte) : decode t (op :: operands ++ rest) = .ok (i, rest) := by
  obtain ⟨opcode, inBase, form⟩ := row
  cases hform <;> simp [decode, operandLength, decodeBytes, h]

/-- Where the decoder answers an instruction, the bytes start with operand bytes of the form. -/
theorem exists_operands_of_decode {row : OpcodeRow} {tail rest : List Byte} {i : Instr}
    (hrow : lookupOpcode t op = some row) (h : decode t (op :: tail) = .ok (i, rest)) :
    ∃ operands, FormReads row.form operands i ∧ tail = operands ++ rest := by
  obtain ⟨opcode, inBase, form⟩ := row
  simp only [decode, operandLength, decodeBytes, hrow] at h
  cases form with
  | none j =>
    cases h
    exact ⟨_, .none j, rfl⟩
  | byte f =>
    match tail, h with
    | d :: _, rfl => exact ⟨_, .byte f d, rfl⟩
  | word f =>
    match tail, h with
    | lo :: hi :: _, rfl => exact ⟨_, .word f (joinBytes hi lo), by simp⟩

/-- Every way the decoder answers an instruction. -/
theorem decode_cases {bytes rest : List Byte} {i : Instr} (h : decode t bytes = .ok (i, rest)) :
    (∃ op, lookupOpcode t op = none ∧ i = .unknown op ∧ bytes = op :: rest) ∨
    (∃ op row operands, lookupOpcode t op = some row ∧ FormReads row.form operands i ∧
      bytes = op :: operands ++ rest) := by
  cases bytes with
  | nil => cases h
  | cons op tail =>
    cases hrow : lookupOpcode t op with
    | none =>
      rw [decode_of_noEntry hrow] at h
      cases h
      exact .inl ⟨op, hrow, rfl, rfl⟩
    | some row =>
      obtain ⟨operands, hform, rfl⟩ := exists_operands_of_decode hrow h
      exact .inr ⟨op, row, operands, hrow, hform, rfl⟩

end

/-- A byte decodes to `unknown` exactly where the table has no row for it. -/
theorem decodeBytes_eq_unknown_iff (t : Table) (op b1 b2 : Byte) :
    decodeBytes t op b1 b2 = .unknown op ↔ NoEntry t op := by
  rw [← lookupOpcode_eq_none_iff]
  refine ⟨fun h => ?_, fun h => decodeBytes_of_noEntry h b1 b2⟩
  cases hrow : lookupOpcode t op with
  | none => rfl
  | some row =>
    obtain ⟨operands, hform⟩ := decodeBytes_of_row hrow b1 b2
    obtain ⟨hmem, -⟩ := mem_opcodeTable_of_lookupOpcode hrow
    exact absurd h ((opcodeTable_agrees row hmem operands _ hform).known op)

end Sys2Proof.Proofs

open Sys2Proof Sys2Proof.Machine Sys2Proof.Safety Sys2Proof.Laws Sys2Proof.Proofs

/-- Settles O11, from the row that every instruction of the table has. -/
theorem encodedInstructionDecodesBack : Obligations.EncodedInstructionDecodesBack := by
  intro t i rest hw
  by_cases hk : ∃ op, i = .unknown op
  · obtain ⟨op, rfl⟩ := hk
    exact decode_of_noEntry (lookupOpcode_eq_none_iff.mpr (wellFormed_unknown_iff.mp hw)) rest
  · obtain ⟨op, operands, row, henc, hrow, hform⟩ :=
      exists_row_of_wellFormed (not_exists.mp hk) hw
    rw [henc]
    exact decode_of_row hrow hform rest

/-- Settles O12, by the ways the decoder answers: each row agrees with the encoder. -/
theorem decodedInstructionEncodesBack : Obligations.DecodedInstructionEncodesBack := by
  intro t bytes rest i h
  rcases decode_cases h with ⟨op, hnone, rfl, rfl⟩ | ⟨op, row, operands, hrow, hform, rfl⟩
  · exact ⟨wellFormed_unknown_iff.mpr (lookupOpcode_eq_none_iff.mp hnone), rfl⟩
  · obtain ⟨hmem, rfl, ht⟩ := mem_opcodeTable_of_lookupOpcode hrow
    obtain ⟨henc, hbase, hk⟩ := opcodeTable_agrees row hmem operands i hform
    exact ⟨by rw [wellFormed_known hk, hbase, ht], by rw [henc]⟩

/-- Settles O13: the rows and the listed bytes share out the 256 bytes, and a row that BASE has is
found under EXT too. -/
theorem opcodesWithoutEntry : Obligations.OpcodesWithoutEntry := by
  refine ⟨decodeBytes_eq_unknown_iff, rfl, opcodes_nodup.of_append_left, ?_⟩
  rintro op b1 b2 _ rfl hk
  cases hrow : lookupOpcode .base op with
  | none => exact absurd (decodeBytes_of_noEntry hrow b1 b2) (hk op)
  | some row =>
    obtain ⟨hmem, hop, -⟩ := mem_opcodeTable_of_lookupOpcode hrow
    have hext : lookupOpcode .ext op = some row :=
      lookupOpcode_eq_some_iff.mpr ⟨hmem, hop, by simp⟩
    simp only [decodeBytes, hrow, hext]

/-- Settles O14, by running the decoder. -/
theorem sampleWordsDecode : Obligations.SampleWordsDecode := by
  unfold Obligations.SampleWordsDecode
  decide
end

section
/-! SUPPORT. What the PC-driven fetches return and that they are the bytes the decoder reads
(40_fetch_addressing.md R50, R51), and the addresses the resolvers compute, on numbers (R57 to R60,
R64, R65). -/

namespace Sys2Proof.Proofs

open Sys2Proof.Machine Sys2Proof.Safety Sys2Proof.Laws

/-! ### The fetches and the decoder -/

/-- The byte fetched after the opcode byte. -/
theorem fetchByte_fetchByte_value (s : State) :
    (fetchByte (fetchByte s).2).1 = memRead s (s.pc + 1) := rfl

/-- The word fetched after the opcode byte. -/
theorem fetchWord_fetchByte_value (s : State) :
    (fetchWord (fetchByte s).2).1 = joinBytes (memRead s (s.pc + 2)) (memRead s (s.pc + 1)) := by
  have hpc : s.pc + 1 + 1 = s.pc + 2 := BitVec.add_assoc ..
  rw [← hpc]
  rfl

/-- An instruction decoded from three bytes is encoded by the first one, two or three of them: as
many as its format has (30_encoding.md R42, R44). -/
theorem encode_decodeBytes (t : Table) (op b1 b2 : Byte) :
    encode (decodeBytes t op b1 b2) = [op] ∨ encode (decodeBytes t op b1 b2) = [op, b1] ∨
      encode (decodeBytes t op b1 b2) = [op, b1, b2] := by
  cases hrow : lookupOpcode t op with
  | none =>
    rw [decodeBytes_of_noEntry hrow]
    exact .inl rfl
  | some row =>
    obtain ⟨hmem, rfl, -⟩ := mem_opcodeTable_of_lookupOpcode hrow
    have hagrees := opcodeTable_agrees row hmem
    simp only [decodeBytes, hrow]
    cases hform : row.form with rw [hform] at hagrees
    | none i => exact .inl (hagrees _ _ (.none i)).encoded
    | byte f => exact .inr (.inl (hagrees _ _ (.byte f b1)).encoded)
    | word f =>
      have henc := (hagrees _ _ (.word f (joinBytes b2 b1))).encoded
      rw [lowByte_joinBytes, highByte_joinBytes] at henc
      exact .inr (.inr henc)

/-- The encoding of the instruction at PC is the one, two or three bytes there (30_encoding.md R43). -/
theorem encode_instrAt (s : State) :
    encode (instrAt s) = [memRead s s.pc] ∨
      encode (instrAt s) = [memRead s s.pc, memRead s (s.pc + 1)] ∨
      encode (instrAt s) = [memRead s s.pc, memRead s (s.pc + 1), memRead s (s.pc + 2)] :=
  encode_decodeBytes _ _ _ _

/-! ### The addresses of the resolvers -/

/-- The zero-page index addition stays in page 0 (40_fetch_addressing.md R58). -/
theorem zeroPageIndexed_toNat (d index : Byte) (s : State) :
    (zeroPageIndexed d index s).1.toNat = (d.toNat + index.toNat) % 256 := by
  rw [zeroPageIndexed, zeroExtend16_toNat, BitVec.toNat_add]

/-- Indexing adds modulo 65536 (40_fetch_addressing.md R60). -/
theorem indexed_toNat (acc : Access) (base : Addr) (index : Byte) (s : State) :
    (indexed acc base index s).1.toNat = (base.toNat + index.toNat) % 65536 := by
  rw [(indexed_state acc base index s).1, BitVec.toNat_add, zeroExtend16_toNat]

/-- Both bytes of a pointer are read from page 0 (40_fetch_addressing.md R64, R65). -/
theorem zeroPagePointer_toNat (z : Byte) (s : State) :
    (zeroPagePointer z s).1.toNat = wordAt s z.toNat ((z.toNat + 1) % 256) := by
  have hhigh : (zeroExtend16 (z + 1)).toNat = (z.toNat + 1) % 256 :=
    (zeroExtend16_toNat _).trans (BitVec.toNat_add z 1)
  calc (zeroPagePointer z s).1.toNat
      = (joinBytes (memRead s (zeroExtend16 (z + 1))) (memRead s (zeroExtend16 z))).toNat := rfl
    _ = wordAt s z.toNat ((z.toNat + 1) % 256) := by
      rw [joinBytes_toNat, memRead, memRead, hhigh, zeroExtend16_toNat, wordAt]

/-- The address of a resolver is the one of the summary table (40_fetch_addressing.md R66). -/
theorem resolve_toNat (acc : Access) (m : Mode) (s : State) :
    (resolve acc m s).1.toNat = effectiveAddress s m := by
  cases m with
  | zp d => exact zeroExtend16_toNat d
  | zpX d => exact zeroPageIndexed_toNat d s.x s
  | zpY d => exact zeroPageIndexed_toNat d s.y s
  | abs w => rfl
  | absX w => exact indexed_toNat acc w s.x _
  | absY w => exact indexed_toNat acc w s.y _
  | indX d =>
    have h := zeroPagePointer_toNat (d + s.x) ((pastByte s).charge 1)
    rw [BitVec.toNat_add] at h
    exact h
  | indY d =>
    have h := indexed_toNat acc (zeroPagePointer d (pastByte s)).1 s.y
      (zeroPagePointer d (pastByte s)).2
    rw [zeroPagePointer_toNat] at h
    exact h

end Sys2Proof.Proofs

open Sys2Proof Sys2Proof.Machine Sys2Proof.Safety Sys2Proof.Laws Sys2Proof.Proofs

/-- Settles O15, by the three formats: the operand bytes of the encoding are those the decoder read
at PC + 1 and PC + 2, where the fetches read. -/
theorem fetchReturnsDecodedOperand : Obligations.FetchReturnsDecodedOperand := by
  intro s
  rcases encode_instrAt s with h | h | h
  · exact ⟨_, h, nofun, nofun, by decide⟩
  · refine ⟨_, h, ?_, by simp, by simp⟩
    rintro d ⟨⟩
    exact fetchByte_fetchByte_value s
  · refine ⟨_, h, by simp, ?_, by simp⟩
    rintro lo hi ⟨⟩
    exact ⟨fetchWord_fetchByte_value s, joinBytes_toNat _ _⟩

/-- Settles O33, mode by mode. -/
theorem effectiveAddressOfEveryMode : Obligations.EffectiveAddressOfEveryMode := resolve_toNat
end

section
/-! SUPPORT. The flags by name, the instruction that writes none of them, and SetNZ on numbers
(10_state.md R12; 41_flag_rules.md R67, R71). -/

namespace Sys2Proof.Proofs

open Sys2Proof.Machine Sys2Proof.Safety

theorem flags_ext_getFlag {p q : Flags} (h : ∀ f, getFlag p f = getFlag q f) : p = q := by
  cases p
  cases q
  rw [Flags.mk.injEq]
  exact ⟨h .n, h .v, h .b, h .d, h .i, h .z, h .c⟩

/-- JSR is in no row of the flag table (10_state.md R12). -/
theorem writesFlag_jsr (w : Addr) (f : FlagName) : writesFlag (.jsr w) f = false := by
  cases f <;> rfl

theorem beq_zero_eq_decide (v : Byte) : (v == 0#8) = decide (v.toNat = 0) := by
  rw [Bool.beq_eq_decide_eq, decide_eq_decide]
  exact BitVec.toNat_inj.symm

theorem bit7_eq_decide (v : Byte) : v.getLsbD 7 = decide (128 ≤ v.toNat) :=
  BitVec.msb_eq_decide v

theorem flags_setNZ_eq (p : Flags) (v : Byte) :
    p.setNZ v = { p with z := decide (v.toNat = 0), n := decide (128 ≤ v.toNat) } := by
  rw [Flags.setNZ, beq_zero_eq_decide, bit7_eq_decide]

end Sys2Proof.Proofs

open Sys2Proof Sys2Proof.Machine Sys2Proof.Safety Sys2Proof.Proofs

/-- Settles O30, by `exec_cases`: the frame of an instruction of the table, where JSR writes no flag;
an unknown opcode touches RUN and DIAG alone. -/
theorem flagFrame : Obligations.FlagFrame := by
  intro i s t h
  rcases exec_cases h with ⟨op, rfl, rfl⟩ | ⟨hi, hf⟩
  · rw [raiseUnknownOpcode_eq]
    exact ⟨fun _ _ => rfl, fun _ => rfl⟩
  · refine ⟨hf.flags, ?_⟩
    rintro (⟨w, rfl⟩ | ⟨op, rfl⟩)
    · exact flags_ext_getFlag fun f => hf.flags f (writesFlag_jsr w f)
    · exact absurd rfl (hi op)

/-- Settles O35, by `flags_setNZ_eq`: a byte with value 0 is below 128. -/
theorem zeroNegativeRule : Obligations.ZeroNegativeRule := by
  intro p v
  refine ⟨flags_setNZ_eq p v, ?_⟩
  rw [flags_setNZ_eq]
  rintro ⟨hz, hn⟩
  have hzero : v.toNat = 0 := of_decide_eq_true hz
  have hneg : 128 ≤ v.toNat := of_decide_eq_true hn
  omega
end

section
/-! SUPPORT. The cycles of every slot: what each shared operation charges, and that the charges of
an instruction add up to the cycles column of the opcode map with its +p and +b (30_encoding.md R46,
42_dispatch_loop.md R84). -/

namespace Sys2Proof.Proofs

open Sys2Proof.Machine Sys2Proof.Safety Sys2Proof.Laws

/-! ### CYC after each shared operation -/

@[simp] theorem putReg_cyc (r : Reg) (v : Byte) (s : State) : (putReg r v s).cyc = s.cyc := by
  cases r <;> rfl

@[simp] theorem implied_cyc (s : State) : (implied s).cyc = s.cyc - 1 := rfl

@[simp] theorem pastByte_cyc (s : State) : (pastByte s).cyc = s.cyc - 1 := rfl

@[simp] theorem pastWord_cyc (s : State) : (pastWord s).cyc = s.cyc - 2 := by rw [pastWord_eq]

@[simp] theorem readByte_cyc (s : State) (addr : Addr) : (readByte s addr).2.cyc = s.cyc - 1 := rfl

@[simp] theorem writeByte_cyc (s : State) (addr : Addr) (v : Byte) :
    (writeByte s addr v).cyc = s.cyc - 1 := rfl

@[simp] theorem pushByte_cyc (s : State) (v : Byte) : (pushByte s v).cyc = s.cyc - 1 := rfl

@[simp] theorem pushWord_cyc (s : State) (w : Addr) : (pushWord s w).cyc = s.cyc - 2 := by
  rw [pushWord_eq]

@[simp] theorem pullByte_cyc (s : State) : (pullByte s).2.cyc = s.cyc - 1 := rfl

@[simp] theorem pullWord_cyc (s : State) : (pullWord s).2.cyc = s.cyc - 2 := by rw [pullWord_eq]

@[simp] theorem zeroPagePointer_cyc (z : Byte) (s : State) :
    (zeroPagePointer z s).2.cyc = s.cyc - 2 := by
  show s.cyc - 1 - 1 = s.cyc - 2
  omega

/-! ### Addressing -/

/-- A reading form pays for its index addition exactly when the page changes (00_scope.md section
7). -/
theorem indexed_reading_cyc (base : Addr) (index : Byte) (s : State) :
    (indexed .reading base index s).2.cyc = s.cyc -
      (if (base.toNat + index.toNat) % 65536 / 256 != base.toNat / 256 then 1 else 0 : Nat) := by
  have hpage : pageDiffers (base + zeroExtend16 index) base =
      ((base.toNat + index.toNat) % 65536 / 256 != base.toNat / 256) := by
    rw [pageDiffers_eq, BitVec.toNat_add, zeroExtend16_toNat]
  simp only [indexed, hpage]
  split
  · rfl
  · exact (Int.sub_zero _).symm

@[simp] theorem indexed_writing_cyc (base : Addr) (index : Byte) (s : State) :
    (indexed .writing base index s).2.cyc = s.cyc - 1 := rfl

/-- Forming the address of a reading form charges a load's cycles but the opcode fetch and the read
(40_fetch_addressing.md R66). -/
theorem resolve_reading_cyc (m : Mode) (s : State) :
    (resolve .reading m s).2.cyc = s.cyc + 2 - loadCycles s (.mem m) := by
  cases m with
  | zp d => simp [resolve, zeroPage, loadCycles]; omega
  | zpX d => simp [resolve, zeroPageX, zeroPageIndexed, loadCycles]; omega
  | zpY d => simp [resolve, zeroPageY, zeroPageIndexed, loadCycles]; omega
  | abs w => simp [resolve, absolute, loadCycles]; omega
  | absX w =>
    have h : (resolve .reading (.absX w) s).2.cyc = (pastWord s).cyc - pageCycle s (.absX w) :=
      indexed_reading_cyc w s.x (pastWord s)
    rw [h, pastWord_cyc, loadCycles]
    omega
  | absY w =>
    have h : (resolve .reading (.absY w) s).2.cyc = (pastWord s).cyc - pageCycle s (.absY w) :=
      indexed_reading_cyc w s.y (pastWord s)
    rw [h, pastWord_cyc, loadCycles]
    omega
  | indX d => simp [resolve, indirectX, loadCycles]; omega
  | indY d =>
    have h := indexed_reading_cyc (zeroPagePointer d (pastByte s)).1 s.y
      (zeroPagePointer d (pastByte s)).2
    rw [zeroPagePointer_toNat, zeroPagePointer_cyc, pastByte_cyc] at h
    have hcyc : (resolve .reading (.indY d) s).2.cyc = s.cyc - 1 - 2 - pageCycle s (.indY d) := h
    rw [hcyc, loadCycles]
    omega

/-- Forming the address of a store charges a store's cycles but the opcode fetch and the write
(45_ext_load_store_transfer.md R96). -/
theorem resolve_writing_cyc (m : Mode) (s : State) :
    (resolve .writing m s).2.cyc = s.cyc + 2 - storeCycles m := by
  cases m with
  | zp d => simp [resolve, zeroPage, storeCycles]; omega
  | zpX d => simp [resolve, zeroPageX, zeroPageIndexed, storeCycles]; omega
  | zpY d => simp [resolve, zeroPageY, zeroPageIndexed, storeCycles]; omega
  | abs w => simp [resolve, absolute, storeCycles]; omega
  | absX w => simp [resolve, absoluteX, storeCycles]; omega
  | absY w => simp [resolve, absoluteY, storeCycles]; omega
  | indX d => simp [resolve, indirectX, storeCycles]; omega
  | indY d => simp [resolve, indirectY, storeCycles]; omega

/-- Reading an operand charges a load's cycles but the opcode fetch (40_fetch_addressing.md R66). -/
theorem operand_cyc (src : Source) (s : State) :
    (operand src s).2.cyc = s.cyc + 1 - loadCycles s src := by
  cases src with
  | imm v =>
    show s.cyc - 1 = s.cyc + 1 - 2
    omega
  | mem m =>
    rw [operand, readByte_cyc, resolve_reading_cyc]
    omega

/-- The target of a branch counts from the next instruction, modulo 65536 (48_ext_control.md
R131). -/
theorem relative_toNat (d : Byte) (s : State) :
    ((relative d s).1.toNat : Int) = branchTarget s d := by
  have hoff : (signExtend16 d).toNat = (d.toInt % 65536).toNat := BitVec.toNat_ofInt ..
  have hsum : (relative d s).1 = s.pc + 1 + signExtend16 d := rfl
  rw [hsum, BitVec.toNat_add, BitVec.toNat_add, hoff, branchTarget]
  show ((((s.pc.toNat + 1) % 65536 + (d.toInt % 65536).toNat) % 65536 : Nat) : Int) = _
  omega

/-! ### What a slot costs, family by family -/

/-- What the opcode map gives for the slot: its cycles column, +p and +b. -/
def slotCost (s : State) (i : Instr) : Nat := baseCycles i + extraCycles s i

section
variable {i : Instr} (s : State)

theorem readForm_load {r : Reg} {src : Source} (h : loadForm i = some (r, src)) :
    readForm i = some src := by
  cases i <;> cases h <;> rfl

theorem readForm_adc {src : Source} (h : adcForm i = some src) : readForm i = some src := by
  cases i <;> cases h <;> rfl

theorem readForm_sbc {src : Source} (h : sbcForm i = some src) : readForm i = some src := by
  cases i <;> cases h <;> rfl

theorem readForm_logic {op : LogicOp} {src : Source} (h : logicForm i = some (op, src)) :
    readForm i = some src := by
  cases i <;> cases h <;> rfl

theorem readForm_compare {r : Reg} {src : Source} (h : compareForm i = some (r, src)) :
    readForm i = some src := by
  cases i <;> cases h <;> rfl

theorem readForm_bit {src : Source} (h : bitForm i = some src) : readForm i = some src := by
  cases i <;> cases h <;> rfl

theorem slotCost_read {src : Source} (h : readForm i = some src) :
    slotCost s i = loadCycles s src := by
  cases i <;> cases h <;> rfl

theorem slotCost_store {r : Reg} {m : Mode} (h : storeForm i = some (r, m)) :
    slotCost s i = storeCycles m := by
  cases i <;> cases h <;> rfl

/-- A read-modify-write form reads and works on the byte before it stores it (47_ext_shift_incdec.md
R118). -/
theorem slotCost_rmw {op : RmwOp} {m : Mode} (h : rmwForm i = some (op, m)) :
    slotCost s i = storeCycles m + 2 := by
  cases i <;> cases h <;> rfl

theorem slotCost_transfer {dst src : Reg} (h : transferForm i = some (dst, src)) :
    slotCost s i = 2 := by
  cases i <;> cases h <;> rfl

theorem slotCost_rmwAcc {op : RmwOp} (h : rmwAccForm i = some op) : slotCost s i = 2 := by
  cases i <;> cases h <;> rfl

theorem slotCost_indexStep {r : Reg} {k : Nat} (h : indexStepForm i = some (r, k)) :
    slotCost s i = 2 := by
  cases i <;> cases h <;> rfl

theorem slotCost_flag {f : FlagName} {value : Bool} (h : flagForm i = some (f, value)) :
    slotCost s i = 2 := by
  cases i <;> cases h <;> rfl

/-- `+b`: 1 when taken, 2 when taken to another page (48_ext_control.md R131). -/
theorem slotCost_branch {f : FlagName} {value : Bool} {d : Byte}
    (h : branchForm i = some (f, value, d)) :
    slotCost s i = 2 + if taken s f value then
      if branchTarget s d / 256 = ((s.pc.toNat : Int) + 1) % 65536 / 256 then 1 else 2 else 0 := by
  cases i <;> cases h <;> rfl

end

/-! ### What a meaning charges -/

/-- Every next state answered from `s` has paid `n` cycles for the slot, 1 of them for the opcode
fetch before `s`. -/
def Charges (n : Nat) (s : State) (result : Result) : Prop :=
  ∀ t, result = .next t → t.cyc = s.cyc + 1 - n

namespace Charges

variable {n : Nat} {s : State}

theorem next {t : State} (h : t.cyc = s.cyc + 1 - n) : Charges n s (.next t) := by
  rintro _ ⟨⟩
  exact h

theorem stackGuard {result : Result} (h : Charges n s result) (u : State) (wraps : Bool) :
    Charges n s (stackGuard u wraps result) := by
  rcases stackGuard_cases u wraps result with ⟨heq, -⟩ | ⟨heq, -⟩ <;> rw [heq]
  · exact h
  · rintro _ ⟨⟩

theorem decimalGuard {result : Result} (h : Charges n s result) (u : State) :
    Charges n s (decimalGuard u result) := by
  rcases decimalGuard_cases u result with ⟨heq, -⟩ | ⟨heq, -⟩ <;> rw [heq]
  · exact h
  · rintro _ ⟨⟩

/-- One internal cycle after the opcode fetch (40_fetch_addressing.md R61). -/
theorem of_implied {t : State} (h : t.cyc = (implied s).cyc) : Charges 2 s (.next t) := by
  refine .next ?_
  rw [h, implied_cyc]
  omega

/-- A reading instruction charges for its operand alone. -/
theorem of_operand {src : Source} {t : State} (h : t.cyc = (operand src s).2.cyc) :
    Charges (loadCycles s src) s (.next t) := .next (h.trans (operand_cyc src s))

theorem addWith (g : Byte → Byte) (src : Source) :
    Charges (loadCycles s src) s (addWith g src s) :=
  .decimalGuard (.of_operand (by simp)) s

theorem store (m : Mode) (v : Byte) : Charges (storeCycles m) s (store m v s) := by
  refine .next ?_
  rw [writeByte_cyc, resolve_writing_cyc]
  omega

theorem rmwMem (f : RmwFunction) (m : Mode) : Charges (storeCycles m + 2) s (rmwMem f m s) := by
  refine .next ?_
  rw [writeByte_cyc, setP_cyc, charge_cyc, readByte_cyc, resolve_writing_cyc]
  omega

/-- The model tests the pages of two addresses, the opcode map's +b those of two numbers: `hpage`
says that it is one test (48_ext_control.md R131). -/
theorem branch (cond : Bool) (d : Byte) :
    Charges (2 + if cond then
      if branchTarget s d / 256 = ((s.pc.toNat : Int) + 1) % 65536 / 256 then 1 else 2 else 0)
      s (branch cond d s) := by
  have hnext : ((s.pc + 1).toNat : Int) = ((s.pc.toNat : Int) + 1) % 65536 := by
    rw [BitVec.toNat_add]
    rfl
  have hpage : pageDiffers (relative d s).1 (s.pc + 1) = true ↔
      branchTarget s d / 256 ≠ ((s.pc.toNat : Int) + 1) % 65536 / 256 := by
    rw [pageDiffers_eq, bne_iff_ne, ← relative_toNat, ← hnext]
    omega
  cases cond with
  | false =>
    refine .next ?_
    show s.cyc - 1 = s.cyc + 1 - 2
    omega
  | true =>
    refine .next ?_
    show (if pageDiffers (relative d s).1 (s.pc + 1) then ((pastByte s).charge 1).charge 1
      else (pastByte s).charge 1).cyc = _
    simp only [hpage]
    split <;> simp [*] <;> omega

end Charges

/-! ### Jumps, calls, the software interrupt, the stack -/

theorem jmpAbs_charges (w : Addr) (s : State) : Charges 3 s (exec (.jmpAbs w) s) :=
  .next (by simp [absolute]; omega)

theorem jmpInd_charges (w : Addr) (s : State) : Charges 5 s (exec (.jmpInd w) s) :=
  .next (by simp [indirect]; omega)

theorem jsr_charges (w : Addr) (s : State) : Charges 6 s (exec (.jsr w) s) :=
  .stackGuard (.next (by simp [absolute]; omega)) s _

theorem rts_charges (s : State) : Charges 6 s (exec .rts s) :=
  .stackGuard (.next (by simp; omega)) s _

theorem brk_charges (s : State) : Charges 7 s (exec .brk s) :=
  .stackGuard (.next (by simp [enterSoftwareInterrupt_eq]; omega)) s _

theorem rti_charges (s : State) : Charges 6 s (exec .rti s) :=
  .stackGuard (.next (by simp [returnFromInterrupt_eq]; omega)) s _

theorem pha_charges (s : State) : Charges 3 s (exec .pha s) :=
  .stackGuard (.next (by simp; omega)) s _

theorem php_charges (s : State) : Charges 3 s (exec .php s) :=
  .stackGuard (.next (by simp; omega)) s _

theorem pla_charges (s : State) : Charges 4 s (exec .pla s) :=
  .stackGuard (.next (by simp; omega)) s _

theorem plp_charges (s : State) : Charges 4 s (exec .plp s) :=
  .stackGuard (.next (by simp; omega)) s _

/-- The opcode fetch is all an unknown opcode costs (42_dispatch_loop.md R77). -/
theorem unknown_charges (op : Byte) (s : State) : Charges 1 s (exec (.unknown op) s) := by
  refine .next ?_
  rw [raiseUnknownOpcode_eq]
  exact (Int.add_sub_cancel s.cyc 1).symm

/-! ### Every instruction -/

/-- Every instruction charges what the opcode map gives for its slot. -/
theorem exec_charges (i : Instr) (s : State) : Charges (slotCost s i) s (exec i s) := by
  rcases form_cases i with ⟨r, src, h⟩ | ⟨r, m, h⟩ | ⟨dst, src, h⟩ | rfl | ⟨src, h⟩ | ⟨src, h⟩ |
    ⟨op, src, h⟩ | ⟨r, src, h⟩ | ⟨src, h⟩ | ⟨op, h⟩ | ⟨op, m, h⟩ | ⟨r, k, h⟩ | ⟨f, v, d, h⟩ |
    ⟨f, v, h⟩ | ⟨w, rfl⟩ | ⟨w, rfl⟩ | ⟨w, rfl⟩ | rfl | rfl | rfl | rfl | rfl | rfl | rfl | rfl |
    ⟨op, rfl⟩
  · rw [exec_load h, slotCost_read s (readForm_load h)]
    exact .of_operand (by simp)
  · rw [exec_store h, slotCost_store s h]
    exact .store m _
  · rw [exec_transfer h, slotCost_transfer s h]
    exact .of_implied (by simp)
  · exact .of_implied rfl
  · rw [exec_adc h, slotCost_read s (readForm_adc h)]
    exact .addWith _ src
  · rw [exec_sbc h, slotCost_read s (readForm_sbc h)]
    exact .addWith _ src
  · rw [exec_logic h, slotCost_read s (readForm_logic h)]
    exact .of_operand rfl
  · rw [exec_compare h, slotCost_read s (readForm_compare h)]
    exact .of_operand rfl
  · rw [exec_bit h, slotCost_read s (readForm_bit h)]
    exact .of_operand rfl
  · rw [exec_rmwAcc h, slotCost_rmwAcc s h]
    exact .of_implied rfl
  · rw [exec_rmw h, slotCost_rmw s h]
    exact .rmwMem _ m
  · rw [exec_indexStep h, slotCost_indexStep s h]
    exact .of_implied (by simp)
  · rw [exec_branch h, slotCost_branch s h]
    exact .branch _ d
  · rw [exec_flag h, slotCost_flag s h]
    exact .of_implied rfl
  · exact jmpAbs_charges w s
  · exact jmpInd_charges w s
  · exact jsr_charges w s
  · exact rts_charges s
  · exact brk_charges s
  · exact rti_charges s
  · exact .of_implied rfl
  · exact pha_charges s
  · exact php_charges s
  · exact pla_charges s
  · exact plp_charges s
  · exact unknown_charges op s

end Sys2Proof.Proofs
end

section
/-! SUPPORT. The dispatch loop: how Execute begins, and that a step inside it is one slot of the
instruction at PC (42_dispatch_loop.md R73 to R84). -/

namespace Sys2Proof.Proofs

open Sys2Proof.Machine Sys2Proof.Safety Sys2Proof.Laws

/-- A word read from memory, on numbers (20_memory.md R28). -/
theorem memReadWord_eq_ofNat (s : State) (addr : Addr) :
    memReadWord s addr = BitVec.ofNat 16 (wordAt s addr.toNat ((addr.toNat + 1) % 65536)) := by
  have hhigh : (addr + 1).toNat = (addr.toNat + 1) % 65536 := BitVec.toNat_add addr 1
  rw [wordAt, ← hhigh, ← memRead, ← memRead, ← joinBytes_toNat, BitVec.ofNat_toNat,
    BitVec.setWidth_eq, memReadWord]

/-- Three bytes are enough for the decoder, so it reads what the loop reads at PC (30_encoding.md
R42). -/
theorem decodeBytes_of_decode {t : Table} {op b1 b2 : Byte} {rest : List Byte} {i : Instr}
    (h : decode t [op, b1, b2] = .ok (i, rest)) : decodeBytes t op b1 b2 = i := by
  cases hrow : lookupOpcode t op with
  | none =>
    rw [decode_of_noEntry hrow] at h
    cases h
    exact decodeBytes_of_noEntry hrow b1 b2
  | some row =>
    obtain ⟨opcode, inBase, form⟩ := row
    simp only [decode, operandLength, decodeBytes, hrow] at h ⊢
    cases form with
    | none _ | byte _ | word _ =>
      cases h
      rfl

theorem instrAt_of_decode {s : State} {rest : List Byte} {i : Instr}
    (h : decode s.cfg.table [memRead s s.pc, memRead s (s.pc + 1), memRead s (s.pc + 2)] =
      .ok (i, rest)) : instrAt s = i := decodeBytes_of_decode h

theorem instrAt_of_noEntry {s : State} (h : NoEntry s.cfg.table (memRead s s.pc)) :
    instrAt s = .unknown (memRead s s.pc) := (decodeBytes_eq_unknown_iff _ _ _ _).mpr h

/-! ### A step inside Execute -/

/-- The state a slot's meaning starts from: the opcode byte is fetched (42_dispatch_loop.md R74). -/
theorem enterSlot_eq (s : State) : enterSlot s =
    { s with pc := s.pc + 1, cyc := s.cyc - 1, run := phaseOf (instrAt s) } := rfl

theorem not_outside_of_inside {s : State} (hi : InsideExecute s) : ¬OutsideExecute s := by
  unfold OutsideExecute
  rcases hi with h | h | h <;> simp [h]

section
variable {s : State} (hi : InsideExecute s) (hc : 0 < s.cyc)
include hi hc

/-- With budget left a step inside Execute is a slot (42_dispatch_loop.md R74). -/
theorem step_slot : step s = endSlot (exec (instrAt s) (enterSlot s)) := by
  rw [step_inside hi, if_neg (not_le.mpr hc)]

/-- Where it answers a next state the meaning did, and the end of the slot sets RUN alone. -/
theorem exists_exec_of_step {t : State} (h : step s = .next t) :
    ∃ u run, exec (instrAt s) (enterSlot s) = .next u ∧ t = { u with run := run } := by
  rcases step_cases h with ⟨ho, -⟩ | ⟨-, hle, -⟩ | ⟨-, -, u, hu, rfl⟩
  · exact absurd ho (not_outside_of_inside hi)
  · exact absurd hle (not_le.mpr hc)
  · exact ⟨u, _, hu, slotEnd_eq u⟩

end

end Sys2Proof.Proofs

open Sys2Proof Sys2Proof.Machine Sys2Proof.Safety Sys2Proof.Laws Sys2Proof.Proofs

/-- Settles O25, family by family (`exec_charges`). -/
theorem slotChargesTableCycles : Obligations.SlotChargesTableCycles := exec_charges

/-- Settles O24: after the opcode fetch's cycle the meaning pays the rest of the slot's cost
(`exec_charges`), and no meaning touches the budget. -/
theorem returnedCyclesAreTheSlotCosts : Obligations.ReturnedCyclesAreTheSlotCosts := by
  refine ⟨fun s budget => Int.sub_self budget, fun s => rfl, fun s t hi hc h => ?_⟩
  obtain ⟨u, run, hu, rfl⟩ := exists_exec_of_step hi hc h
  have hbudget : u.budget = s.budget := (slot_keeps hu).budget
  have hcyc : u.cyc = s.cyc - 1 + 1 - slotCost (enterSlot s) (instrAt s) := exec_charges _ _ u hu
  refine ⟨hbudget, ?_⟩
  show u.budget - u.cyc = s.budget - s.cyc + slotCost (enterSlot s) (instrAt s)
  omega

/-- Settles O3: the host's turn is `beginExecute`, whose word at 0xFFFC is `wordAt`. -/
theorem executeBegins : Obligations.ExecuteBegins := by
  intro s budget rest hout hscript
  have hword : memReadWord { s with script := rest } 0xFFFC#16 =
      BitVec.ofNat 16 (wordAt s 0xFFFC 0xFFFD) := memReadWord_eq_ofNat _ _
  rw [step_outside hout, hostTurn_cons hscript, hostOp, beginExecute, hword]

/-- Settles O6: the budget test comes before the slot. -/
theorem budgetExhaustionEndsExecute : Obligations.BudgetExhaustionEndsExecute := by
  intro s hi hc
  rw [step_inside hi, if_pos hc]
  rfl

/-- Settles O7: the loop decodes the same three bytes (`instrAt_of_decode`). -/
theorem stepRunsDecodedInstruction : Obligations.StepRunsDecodedInstruction := by
  intro s i rest hi hc hdecode
  obtain rfl := instrAt_of_decode hdecode
  intro started
  have hstep : step s = endSlot (exec (instrAt s) started) := step_slot hi hc
  refine ⟨fun t ht => ?_, fun r hr => ?_⟩
  · rw [hstep, ht]
    rfl
  · rw [hstep, hr]
    rfl

/-- Settles O8: a byte without an entry is decoded as unknown, and `raiseUnknownOpcode_eq` says what
its slot does. -/
theorem unknownOpcodeSlot : Obligations.UnknownOpcodeSlot := by
  intro s hi hc hentry
  rw [step_slot hi hc, enterSlot_eq, instrAt_of_noEntry hentry, exec_unknown, raiseUnknownOpcode_eq,
    endSlot, slotEnd_eq]
  dsimp only
  cases s.cfg.unknownPolicy <;> rfl

/-- Settles O9, both policies in one equation (`raiseUnknownOpcode_eq`). -/
theorem unknownOpcodeMeaning : Obligations.UnknownOpcodeMeaning := by
  intro op s
  rw [exec_unknown, raiseUnknownOpcode_eq]
end

section
/-! SUPPORT. Everything an operand read does, Z and N by the shared rule, and the three-byte format
(45_ext_load_store_transfer.md R96, 41_flag_rules.md R67, 30_encoding.md R42). -/

namespace Sys2Proof.Proofs

open Sys2Proof.Machine Sys2Proof.Safety Sys2Proof.Laws

/-- The value read is the byte at the effective address of the summary table (40_fetch_addressing.md
R66). -/
theorem operand_value (src : Source) (s : State) : (operand src s).1 = operandValue s src := by
  cases src with
  | imm v => rfl
  | mem m =>
    calc (operand (.mem m) s).1
        = memRead (resolve .reading m s).2 (resolve .reading m s).1 := rfl
      _ = memRead s (resolve .reading m s).1 := memRead_congr (resolve_mem .reading m s) _
      _ = operandValue s (.mem m) := by rw [memRead, resolve_toNat, operandValue]

/-- Reading an operand is the value and the state the summary table gives: `operand_state` leaves only
the number of cycles open, and `operand_cyc` fixes it. -/
theorem operand_eq (src : Source) (s : State) :
    operand src s = (operandValue s src, afterRead s src) := by
  obtain ⟨n, hstate⟩ := operand_state src s
  have hcyc : s.cyc - n = s.cyc + 1 - loadCycles s src := by
    rw [← operand_cyc, hstate]
  exact Prod.ext (operand_value src s) (by rw [hstate, hcyc, afterRead])

/-- Bit 7 of a byte is the sign of the byte as a signed number (41_flag_rules.md R67). -/
theorem flags_setNZ_eq_flagsNZ (p : Flags) (v : Byte) : p.setNZ v = flagsNZ p v := by
  have hn : v.getLsbD 7 = decide (v.toInt < 0) := BitVec.msb_eq_toInt (x := v)
  rw [Flags.setNZ, hn, Bool.beq_eq_decide_eq, flagsNZ]

/-- Z and N do not depend on the register written. -/
theorem putReg_setNZ (r : Reg) (v w : Byte) (s : State) :
    (putReg r v s).setNZ w = putReg r v { s with p := flagsNZ s.p w } := by
  rw [← flags_setNZ_eq_flagsNZ]
  cases r <;> rfl

/-- The two bytes of a word, on numbers, are those of the format F3. -/
theorem hasF3_of_encode {f : Addr → Instr} {op : Byte}
    (h : ∀ w, encode (f w) = [op, lowByte w, highByte w]) : HasF3 f op := by
  intro w
  rw [h, ← lowByte_toNat, ← highByte_toNat, BitVec.ofNat_toNat, BitVec.ofNat_toNat,
    BitVec.setWidth_eq, BitVec.setWidth_eq]

end Sys2Proof.Proofs

open Sys2Proof Sys2Proof.Machine Sys2Proof.Safety Sys2Proof.Laws Sys2Proof.Proofs

/-- Settles O39: a load is the operand read (`operand_eq`), then the register and its flags
(`putReg_setNZ`); the formats are the encoder's own rows. -/
theorem loadResult : Obligations.LoadResult := by
  refine ⟨fun i r src s h => ?_,
    -- LDA
    fun _ => rfl, fun _ => rfl, fun _ => rfl, hasF3_of_encode fun _ => rfl,
    hasF3_of_encode fun _ => rfl, hasF3_of_encode fun _ => rfl, fun _ => rfl, fun _ => rfl,
    -- LDX
    fun _ => rfl, fun _ => rfl, fun _ => rfl, hasF3_of_encode fun _ => rfl,
    hasF3_of_encode fun _ => rfl,
    -- LDY
    fun _ => rfl, fun _ => rfl, fun _ => rfl, hasF3_of_encode fun _ => rfl,
    hasF3_of_encode fun _ => rfl⟩
  rw [exec_load h, operand_eq, putReg_setNZ]
  rfl
end

section
/-! SUPPORT. What a push stores and a pull takes back (44_jsr_stack.md R89 to R93), and what `exec`
answers for the instructions that push or pull, STACK_CHECK included (44_jsr_stack.md R94, log 8). -/

namespace Sys2Proof.Proofs

open Sys2Proof.Machine Sys2Proof.Safety Sys2Proof.Laws

/-! ### A pull after a push -/

theorem memRead_pushByte_same {s : State} (h : s.mem.wf = true) (v : Byte) :
    memRead (pushByte s v) (stackAddr s.sp) = v := memRead_memWrite_same h (stackAddr s.sp) v

section
variable {s : State} (h : s.mem.wf = true)
include h

theorem pullByte_pushByte (v : Byte) :
    pullByte (pushByte s v) = (v, { pushByte s v with sp := s.sp, cyc := s.cyc - 2 }) := by
  have hsp : (pushByte s v).sp - 1 = s.sp := BitVec.add_sub_cancel s.sp 1
  have hcyc : (pushByte s v).cyc - 1 = s.cyc - 2 := Int.sub_sub s.cyc 1 1
  rw [pullByte_eq, hsp, hcyc, memRead_pushByte_same h]

theorem memRead_pushWord_high (w : Addr) :
    memRead (pushWord s w) (stackAddr (s.sp + 1)) = highByte w :=
  memRead_pushByte_same (pushByte_wf h (lowByte w)) (highByte w)

/-- The two slots of a word differ, also when S wraps between them. -/
theorem memRead_pushWord_low (w : Addr) :
    memRead (pushWord s w) (stackAddr s.sp) = lowByte w := by
  have hne : stackAddr s.sp ≠ stackAddr (s.sp + 1) := fun heq => by
    have := stackAddr_injective heq
    bv_omega
  exact (memRead_pushByte_other _ (highByte w) hne).trans (memRead_pushByte_same h (lowByte w))

theorem pullWord_pushWord (w : Addr) :
    pullWord (pushWord s w) = (w, { pushWord s w with sp := s.sp, cyc := s.cyc - 4 }) := by
  have hsp : (pushWord s w).sp = s.sp + 2 := by rw [pushWord_eq]
  have hhigh : (pushWord s w).sp - 1 = s.sp + 1 := by rw [hsp]; bv_omega
  have hlow : (pushWord s w).sp - 2 = s.sp := by rw [hsp]; exact BitVec.add_sub_cancel s.sp 2
  have hcyc : (pushWord s w).cyc - 2 = s.cyc - 4 := by rw [pushWord_cyc]; omega
  rw [pullWord_eq, hhigh, hlow, hcyc, memRead_pushWord_high h, memRead_pushWord_low h,
    joinBytes_highByte_lowByte]

end

/-- A pulled word depends on memory and S alone. -/
theorem pullWord_fst_congr {s t : State} (hmem : t.mem = s.mem) (hsp : t.sp = s.sp) :
    (pullWord t).1 = (pullWord s).1 := by
  rw [pullWord_eq, pullWord_eq, hsp, memRead_congr hmem, memRead_congr hmem]

/-! ### The cells pushed to, on numbers -/

/-- The slot S designates after `k` more bytes, inside page 1 (44_jsr_stack.md R89). -/
theorem stackAddr_add_toNat (sp : Byte) (k : Nat) :
    (stackAddr (sp + BitVec.ofNat 8 k)).toNat = 256 + (sp.toNat + k) % 256 := by
  rw [stackAddr_toNat, BitVec.toNat_add, BitVec.toNat_ofNat, Nat.add_mod_mod]

theorem wordBytes_toNat (w : Addr) : wordBytes w.toNat = [lowByte w, highByte w] := by
  have hlow : BitVec.ofNat 8 (w.toNat % 256) = lowByte w := by
    rw [← lowByte_toNat, BitVec.ofNat_toNat, BitVec.setWidth_eq]
  have hhigh : BitVec.ofNat 8 (w.toNat / 256 % 256) = highByte w := by
    rw [← highByte_toNat, Nat.mod_eq_of_lt (highByte w).isLt, BitVec.ofNat_toNat,
      BitVec.setWidth_eq]
  rw [wordBytes, hlow, hhigh]

theorem pushByte_mem (s : State) (v : Byte) :
    (pushByte s v).mem = pushed s.mem s.sp.toNat [v] := by
  have hslot : (stackAddr s.sp).toNat = 256 + s.sp.toNat % 256 := by
    rw [stackAddr_toNat, Nat.mod_eq_of_lt s.sp.isLt]
  rw [pushByte_eq, hslot, pushed, pushed]

theorem pushWord_mem (s : State) (w : Addr) :
    (pushWord s w).mem = pushed s.mem s.sp.toNat (wordBytes w.toNat) := by
  have hhigh : (stackAddr (s.sp + 1)).toNat = 256 + (s.sp.toNat + 1) % 256 :=
    stackAddr_add_toNat s.sp 1
  have hlow : (stackAddr s.sp).toNat = 256 + s.sp.toNat % 256 := by
    rw [stackAddr_toNat, Nat.mod_eq_of_lt s.sp.isLt]
  rw [pushWord_eq, hlow, hhigh, wordBytes_toNat, pushed, pushed, pushed]

/-! ### The instructions that push or pull -/

section
variable {i : Instr} (s : State)

theorem stackRefused_of_push (h : pulls i = 0) :
    StackRefused i s ↔ s.cfg.stackCheck = .on ∧ pushWraps s (pushes i) = true := by
  rw [StackRefused, pushWraps, h, decide_eq_true_iff]
  simp

theorem stackRefused_of_pull (h : pushes i = 0) :
    StackRefused i s ↔ s.cfg.stackCheck = .on ∧ pullWraps s (pulls i) = true := by
  have hlt : ¬256 ≤ s.sp.toNat := by have := s.sp.isLt; omega
  rw [StackRefused, pullWraps, h, decide_eq_true_iff]
  simp [hlt]

theorem push_cases (h : 0 < pushes i) :
    (∃ w, i = .jsr w) ∨ i = .brk ∨ i = .pha ∨ i = .php := by
  rcases stack_cases i (fun hnone => absurd hnone.1 (Nat.ne_of_gt h)) with
    ⟨w, rfl⟩ | rfl | rfl | rfl | rfl | rfl | rfl | rfl
  · exact .inl ⟨w, rfl⟩
  · cases h
  · exact .inr (.inl rfl)
  · cases h
  · exact .inr (.inr (.inl rfl))
  · cases h
  · exact .inr (.inr (.inr rfl))
  · cases h

theorem pull_cases (h : 0 < pulls i) : i = .rts ∨ i = .rti ∨ i = .pla ∨ i = .plp := by
  rcases stack_cases i (fun hnone => absurd hnone.2 (Nat.ne_of_gt h)) with
    ⟨w, rfl⟩ | rfl | rfl | rfl | rfl | rfl | rfl | rfl
  · cases h
  · exact .inl rfl
  · cases h
  · exact .inr (.inl rfl)
  · cases h
  · exact .inr (.inr (.inl rfl))
  · cases h
  · exact .inr (.inr (.inr rfl))

theorem pulls_of_push (h : 0 < pushes i) : pulls i = 0 := by
  rcases push_cases h with ⟨w, rfl⟩ | rfl | rfl | rfl <;> rfl

theorem pushes_of_pull (h : 0 < pulls i) : pushes i = 0 := by
  rcases pull_cases h with rfl | rfl | rfl | rfl <;> rfl

/-- An instruction that pushes does so under the guard of STACK_CHECK, and S counts the bytes. -/
theorem exec_push (h : 0 < pushes i) :
    ∃ t, exec i s = stackGuard s (pushWraps s (pushes i)) (.next t) ∧
      t.sp = s.sp + BitVec.ofNat 8 (pushes i) := by
  rcases push_cases h with ⟨w, rfl⟩ | rfl | rfl | rfl
  · exact ⟨_, rfl, BitVec.add_assoc s.sp 1 1⟩
  · refine ⟨_, rfl, ?_⟩
    rw [enterSoftwareInterrupt_eq]
    exact (BitVec.add_assoc (s.sp + 1) 1 1).trans (BitVec.add_assoc s.sp 1 2)
  · exact ⟨_, rfl, rfl⟩
  · exact ⟨_, rfl, rfl⟩

/-- An instruction that pulls does so under the same guard. -/
theorem exec_pull (h : 0 < pulls i) :
    ∃ t, exec i s = stackGuard s (pullWraps s (pulls i)) (.next t) ∧
      t.sp = s.sp - BitVec.ofNat 8 (pulls i) := by
  rcases pull_cases h with rfl | rfl | rfl | rfl
  · refine ⟨_, rfl, ?_⟩
    rw [pullWord_eq]
    rfl
  · refine ⟨_, rfl, ?_⟩
    rw [returnFromInterrupt_eq]
    rfl
  · exact ⟨_, rfl, rfl⟩
  · exact ⟨_, rfl, rfl⟩

theorem storedAddrs_push (h : 0 < pushes i) :
    storedAddrs i s =
      (List.range (pushes i)).map fun k => stackAddr (s.sp + BitVec.ofNat 8 k) := by
  rcases push_cases h with ⟨w, rfl⟩ | rfl | rfl | rfl <;> rfl

/-! ### Completed or refused -/

/-- ADC and SBC complete under the guard of DECIMAL_POLICY (46_ext_arith_logic.md R109, log 9). -/
theorem exec_add (h : (adcForm i).isSome ∨ (sbcForm i).isSome) :
    ∃ t, exec i s = decimalGuard s (.next t) := by
  rcases h with h | h
  · obtain ⟨src, hsrc⟩ := Option.isSome_iff_exists.mp h
    exact ⟨_, exec_adc hsrc s⟩
  · obtain ⟨src, hsrc⟩ := Option.isSome_iff_exists.mp h
    exact ⟨_, exec_sbc hsrc s⟩

theorem branch_completes (cond : Bool) (d : Byte) : ∃ t, branch cond d s = .next t := by
  cases cond <;> exact ⟨_, rfl⟩

/-- Every other instruction completes. -/
theorem exec_unguarded (hcounts : pushes i = 0 ∧ pulls i = 0)
    (hadd : ¬((adcForm i).isSome ∨ (sbcForm i).isSome)) : ∃ t, exec i s = .next t := by
  obtain ⟨hpush, hpull⟩ := hcounts
  rcases form_cases i with ⟨r, src, h⟩ | ⟨r, m, h⟩ | ⟨dst, src, h⟩ | rfl | ⟨src, h⟩ | ⟨src, h⟩ |
    ⟨op, src, h⟩ | ⟨r, src, h⟩ | ⟨src, h⟩ | ⟨op, h⟩ | ⟨op, m, h⟩ | ⟨r, k, h⟩ | ⟨f, v, d, h⟩ |
    ⟨f, v, h⟩ | ⟨w, rfl⟩ | ⟨w, rfl⟩ | ⟨w, rfl⟩ | rfl | rfl | rfl | rfl | rfl | rfl | rfl | rfl |
    ⟨op, rfl⟩
  · exact ⟨_, exec_load h s⟩
  · exact ⟨_, exec_store h s⟩
  · exact ⟨_, exec_transfer h s⟩
  · exact ⟨_, exec_txs s⟩
  · exact absurd (.inl (Option.isSome_of_eq_some h)) hadd
  · exact absurd (.inr (Option.isSome_of_eq_some h)) hadd
  · exact ⟨_, exec_logic h s⟩
  · exact ⟨_, exec_compare h s⟩
  · exact ⟨_, exec_bit h s⟩
  · exact ⟨_, exec_rmwAcc h s⟩
  · exact ⟨_, exec_rmw h s⟩
  · exact ⟨_, exec_indexStep h s⟩
  · rw [exec_branch h]
    exact branch_completes s _ d
  · exact ⟨_, exec_flag h s⟩
  · exact ⟨_, exec_jmpAbs w s⟩
  · exact ⟨_, exec_jmpInd w s⟩
  · cases hpush
  · cases hpull
  · cases hpush
  · cases hpull
  · exact ⟨_, exec_nop s⟩
  · cases hpush
  · cases hpush
  · cases hpull
  · cases hpull
  · exact ⟨_, exec_unknown op s⟩

/-- ADC and SBC leave the stack alone, so the two refusals exclude each other. -/
theorem counts_of_add (h : (adcForm i).isSome ∨ (sbcForm i).isSome) :
    pushes i = 0 ∧ pulls i = 0 := by
  by_contra hcounts
  rcases stack_cases i hcounts with ⟨w, rfl⟩ | rfl | rfl | rfl | rfl | rfl | rfl | rfl <;>
    simp [adcForm, sbcForm] at h

theorem not_stackRefused_of_counts (hcounts : pushes i = 0 ∧ pulls i = 0) :
    ¬StackRefused i s := by
  obtain ⟨hpush, hpull⟩ := hcounts
  rintro ⟨-, hwrap⟩
  have := s.sp.isLt
  omega

theorem not_decimalRefused_of_counts (hcounts : ¬(pushes i = 0 ∧ pulls i = 0)) :
    ¬DecimalRefused i s := fun ⟨_, _, hadd⟩ => hcounts (counts_of_add hadd)

end

/-- What a meaning of `i` can answer from `s`: a next state, or the refusal of the one parameter that
takes the meaning away (log 8, log 9). -/
inductive Answered (i : Instr) (s : State) : Result → Prop where
  | completed (t : State) (hstack : ¬StackRefused i s) (hdecimal : ¬DecimalRefused i s) :
      Answered i s (.next t)
  | stackWrap (hstack : StackRefused i s) (hdecimal : ¬DecimalRefused i s) :
      Answered i s (.refused .stackWrap)
  | decimalMode (hstack : ¬StackRefused i s) (hdecimal : DecimalRefused i s) :
      Answered i s (.refused .decimalMode)

namespace Answered

variable {i : Instr} {s : State}

theorem stackGuard {wraps : Bool} (t : State) (hcounts : ¬(pushes i = 0 ∧ pulls i = 0))
    (hwraps : StackRefused i s ↔ s.cfg.stackCheck = .on ∧ wraps = true) :
    Answered i s (stackGuard s wraps (.next t)) := by
  have hdecimal := not_decimalRefused_of_counts s hcounts
  rcases stackGuard_cases s wraps (.next t) with ⟨heq, hfits⟩ | ⟨heq, hwrap⟩ <;> rw [heq]
  · exact .completed t (mt hwraps.mp hfits) hdecimal
  · exact .stackWrap (hwraps.mpr hwrap) hdecimal

theorem decimalGuard (t : State) (hadd : (adcForm i).isSome ∨ (sbcForm i).isSome) :
    Answered i s (decimalGuard s (.next t)) := by
  have hstack := not_stackRefused_of_counts s (counts_of_add hadd)
  rcases decimalGuard_cases s (.next t) with ⟨heq, hbinary⟩ | ⟨heq, hpolicy, hd⟩ <;> rw [heq]
  · exact .completed t hstack fun ⟨hpolicy, hd, _⟩ => hbinary ⟨hpolicy, hd⟩
  · exact .decimalMode hstack ⟨hpolicy, hd, hadd⟩

end Answered

theorem exec_answered (i : Instr) (s : State) : Answered i s (exec i s) := by
  by_cases hpush : 0 < pushes i
  · obtain ⟨t, ht, -⟩ := exec_push s hpush
    rw [ht]
    exact .stackGuard t (by omega) (stackRefused_of_push s (pulls_of_push hpush))
  by_cases hpull : 0 < pulls i
  · obtain ⟨t, ht, -⟩ := exec_pull s hpull
    rw [ht]
    exact .stackGuard t (by omega) (stackRefused_of_pull s (pushes_of_pull hpull))
  have hcounts : pushes i = 0 ∧ pulls i = 0 := by omega
  by_cases hadd : (adcForm i).isSome ∨ (sbcForm i).isSome
  · obtain ⟨t, ht⟩ := exec_add s hadd
    rw [ht]
    exact .decimalGuard t hadd
  · obtain ⟨t, ht⟩ := exec_unguarded s hcounts hadd
    rw [ht]
    exact .completed t (not_stackRefused_of_counts s hcounts) fun ⟨_, _, h⟩ => hadd h

/-! ### The stack pointer -/

section
variable {i : Instr} {s t : State}

/-- A guarded step that completes is the step. -/
theorem eq_of_stackGuard_eq_next {u : State} {wraps : Bool}
    (h : stackGuard s wraps (.next u) = .next t) : t = u := by
  rcases stackGuard_cases s wraps (.next u) with ⟨heq, -⟩ | ⟨heq, -⟩ <;> rw [heq] at h
  · cases h
    rfl
  · cases h

theorem sp_of_push (h : 0 < pushes i) (ht : exec i s = .next t) :
    t.sp = s.sp + BitVec.ofNat 8 (pushes i) := by
  obtain ⟨u, hu, hsp⟩ := exec_push s h
  rw [hu] at ht
  rw [eq_of_stackGuard_eq_next ht, hsp]

theorem sp_of_pull (h : 0 < pulls i) (ht : exec i s = .next t) :
    t.sp = s.sp - BitVec.ofNat 8 (pulls i) := by
  obtain ⟨u, hu, hsp⟩ := exec_pull s h
  rw [hu] at ht
  rw [eq_of_stackGuard_eq_next ht, hsp]

/-- What fitted on the stack can be taken back. -/
theorem not_stackRefused_pull {j : Instr} (h : ¬StackRefused i s) (hpull : pulls j = pushes i)
    (hpush : pushes j = 0) (hcfg : t.cfg = s.cfg) (hsp : t.sp = s.sp + BitVec.ofNat 8 (pushes i)) :
    ¬StackRefused j t := by
  rintro ⟨hon, hwrap⟩
  have hfits : s.sp.toNat + pushes i < 256 := by
    rw [hcfg] at hon
    by_contra hge
    exact h ⟨hon, .inl (by omega)⟩
  have hcount : t.sp.toNat = s.sp.toNat + pushes i := by
    rw [hsp, BitVec.toNat_add, BitVec.toNat_ofNat, Nat.add_mod_mod, Nat.mod_eq_of_lt hfits]
  omega

end

/-! ### JSR and RTS, where they are not refused -/

theorem stackGuard_of_not {s : State} {wraps : Bool} (k : Result)
    (h : ¬(s.cfg.stackCheck = .on ∧ wraps = true)) : stackGuard s wraps k = k := if_neg h

theorem exec_jsr {w : Addr} {s : State} (h : ¬StackRefused (.jsr w) s) :
    exec (.jsr w) s = .next (((pushWord (pastWord s) (s.pc + 1)).setPc w).charge 1) := by
  have hpc : (pastWord s).pc - 1 = s.pc + 1 := BitVec.add_sub_cancel (s.pc + 1) 1
  rw [stackRefused_of_push s (pulls_jsr w)] at h
  rw [← hpc]
  exact stackGuard_of_not _ h

theorem exec_rts {s : State} (h : ¬StackRefused .rts s) :
    exec .rts s = .next { s with pc := (pullWord s).1 + 1, sp := s.sp - 2, cyc := s.cyc - 5 } := by
  rw [stackRefused_of_pull s pushes_rts] at h
  have hcyc : s.cyc - 2 - (3 : Nat) = s.cyc - 5 := by omega
  calc exec .rts s
      = .next (((pullWord s).2.setPc ((pullWord s).1 + 1)).charge 3) := stackGuard_of_not _ h
    _ = _ := by simp only [pullWord_eq, State.setPc, State.charge, hcyc]

/-- RTS after JSR finds the word JSR pushed. -/
theorem pullWord_after_jsr {w : Addr} {s t : State} (hwf : s.mem.wf = true)
    (hfits : ¬StackRefused (.jsr w) s) (ht : exec (.jsr w) s = .next t) :
    (pullWord t).1 = s.pc + 1 := by
  rw [exec_jsr hfits] at ht
  cases ht
  calc (pullWord (((pushWord (pastWord s) (s.pc + 1)).setPc w).charge 1)).1
      = (pullWord (pushWord (pastWord s) (s.pc + 1))).1 := pullWord_fst_congr rfl rfl
    _ = s.pc + 1 := by rw [pullWord_pushWord (s := pastWord s) hwf]

end Sys2Proof.Proofs

open Sys2Proof Sys2Proof.Machine Sys2Proof.Safety Sys2Proof.Laws Sys2Proof.Proofs

/-- Settles O28: what `exec` answers decides which parameter refuses (`exec_answered`), and the two
refusals exclude each other. -/
theorem refusalsAreTheTwoParameters : Obligations.RefusalsAreTheTwoParameters := by
  intro i s
  have h := exec_answered i s
  generalize exec i s = result at h
  cases h with
  | completed t hstack hdecimal => simp [hstack, hdecimal]
  | stackWrap hstack hdecimal => simp [hstack, hdecimal]
  | decimalMode hstack hdecimal => simp [hstack, hdecimal]

/-- Settles O32: a pushed byte goes to a slot of page 1 (`stackAddr_page`), and S counts the bytes
(`sp_of_push`, `sp_of_pull`). -/
theorem stackStaysInPageOne : Obligations.StackStaysInPageOne := by
  intro i s t ht
  refine ⟨fun hpush addr haddr => ?_, ?_⟩
  · rw [storedAddrs_push s hpush] at haddr
    obtain ⟨k, -, rfl⟩ := List.mem_map.mp haddr
    exact stackAddr_page _
  · rintro (hpush | hpull)
    · rw [sp_of_push hpush ht, pulls_of_push hpush, BitVec.toNat_add, BitVec.toNat_ofNat]
      omega
    · rw [sp_of_pull hpull ht, pushes_of_pull hpull, BitVec.toNat_sub, BitVec.toNat_ofNat]
      omega

/-- Settles O38. -/
theorem pullInvertsPush : Obligations.PullInvertsPush :=
  fun _ h => ⟨pullByte_pushByte h, pullWord_pushWord h⟩

/-- Settles O50: the word pushed (`exec_jsr`), its two cells on numbers (`pushWord_mem`). -/
theorem jumpSubroutineResult : Obligations.JumpSubroutineResult := by
  refine ⟨fun w s h => ?_, hasF3_of_encode fun _ => rfl⟩
  have hmem : (pushWord (pastWord s) (s.pc + 1)).mem =
      pushed s.mem s.sp.toNat (wordBytes ((s.pc.toNat + 1) % 65536)) :=
    pushWord_mem (pastWord s) (s.pc + 1)
  have hsp : (pushWord (pastWord s) (s.pc + 1)).sp = s.sp + 2 := by rw [pushWord_eq]; rfl
  have hcyc : (pushWord (pastWord s) (s.pc + 1)).cyc - (1 : Nat) = s.cyc - 5 := by
    rw [pushWord_cyc, pastWord_cyc]
    omega
  rw [exec_jsr h, ← hmem, ← hsp, ← hcyc]
  rfl

/-- Settles O59: the bytes JSR pushed fitted, so RTS is not refused, and it pulls the word they are
(`pullWord_after_jsr`). -/
theorem returnUndoesCall : Obligations.ReturnUndoesCall := by
  intro w s t hwf hfits ht
  have hsp : t.sp = s.sp + 2 := sp_of_push (i := .jsr w) Nat.zero_lt_two ht
  have hback : ¬StackRefused .rts t :=
    not_stackRefused_pull hfits rfl pushes_rts (exec_keeps ht).cfg hsp
  have hpc : (pullWord t).1 + 1 = s.pc + 2 := by
    rw [pullWord_after_jsr hwf hfits ht]
    exact BitVec.add_assoc s.pc 1 1
  refine ⟨_, exec_rts hback, ?_⟩
  rw [hpc]
  rw [jumpSubroutineResult.1 w s hfits] at ht
  cases ht
  have hrestored : s.sp + 2 - 2 = s.sp := BitVec.add_sub_cancel s.sp 2
  have hcycles : s.cyc - 5 - 5 = s.cyc - 10 := Int.sub_sub s.cyc 5 5
  dsimp only
  rw [hrestored, hcycles]
end

section
/-! SUPPORT. What forming a store address and storing a register there do to the state, address and
cycles on numbers (45_ext_load_store_transfer.md R96, R100 to R102). -/

namespace Sys2Proof.Proofs

open Sys2Proof.Machine Sys2Proof.Safety Sys2Proof.Laws

/-- `AddrW` moves PC past the operand bytes and charges the fixed cycles: `resolve_state` leaves only
their number open, and `resolve_writing_cyc` fixes it. -/
theorem resolve_writing_state (m : Mode) (s : State) :
    (resolve .writing m s).2 =
      { s with pc := s.pc + BitVec.ofNat 16 (modeBytes m), cyc := s.cyc + 2 - storeCycles m } := by
  obtain ⟨n, hstate⟩ := resolve_state .writing m s
  have hcyc : s.cyc - n = s.cyc + 2 - storeCycles m := by
    rw [← resolve_writing_cyc, hstate]
  rw [hstate, hcyc]

/-- A store is its address, then one written byte and the cycle of the write. -/
theorem store_eq (m : Mode) (v : Byte) (s : State) :
    store m v s = .next { s with
      mem := s.mem.write (effectiveAddress s m) v
      pc := s.pc + BitVec.ofNat 16 (modeBytes m), cyc := s.cyc + 1 - storeCycles m } := by
  have hcyc : s.cyc + 2 - storeCycles m - (1 : Nat) = s.cyc + 1 - storeCycles m := by omega
  rw [store, resolve_writing_state, writeByte, memWrite, State.charge, resolve_toNat, hcyc]

end Sys2Proof.Proofs

open Sys2Proof Sys2Proof.Machine Sys2Proof.Safety Sys2Proof.Laws Sys2Proof.Proofs

/-- Settles O34: an operand read by `operand_eq`; a store address by `resolve_toNat` and
`resolve_writing_state`. -/
theorem operandReadAndStoreAddress : Obligations.OperandReadAndStoreAddress :=
  ⟨operand_eq, fun m s => ⟨resolve_toNat .writing m s, resolve_writing_state m s⟩⟩

/-- Settles O40: every form is the one store (`exec_store`, `store_eq`); the formats are the encoder's
own rows. -/
theorem storeResult : Obligations.StoreResult := by
  refine ⟨fun i r m s h => (exec_store h s).trans (store_eq m _ s),
    -- STA
    fun _ => rfl, fun _ => rfl, hasF3_of_encode fun _ => rfl, hasF3_of_encode fun _ => rfl,
    hasF3_of_encode fun _ => rfl, fun _ => rfl, fun _ => rfl,
    -- STX
    fun _ => rfl, fun _ => rfl, hasF3_of_encode fun _ => rfl,
    -- STY
    fun _ => rfl, fun _ => rfl, hasF3_of_encode fun _ => rfl⟩

/-- Settles O41: the register is copied and its flags set (`putReg_setNZ`); TXS calls no SetNZ. -/
theorem transferResult : Obligations.TransferResult := by
  refine ⟨fun i dst src s h => ?_, exec_txs, rfl, rfl, rfl, rfl, rfl, rfl⟩
  rw [exec_transfer h, putReg_setNZ]
  rfl
end

section
/-! SUPPORT. Add, subtract, compare and bit test on numbers (46_ext_arith_logic.md R109 to R117,
41_flag_rules.md R67 to R70). -/

namespace Sys2Proof.Proofs

open Sys2Proof.Machine Sys2Proof.Safety Sys2Proof.Laws

/-! ### Addition -/

theorem addResult_toNat (a m : Byte) (c : Bool) :
    (addResult a m c).toNat = addTotal a m c % 256 := BitVec.toNat_ofNat _ 8

theorem addResult_eq (a m : Byte) (c : Bool) :
    addResult a m c = BitVec.ofNat 8 (addTotal a m c % 256) := by
  rw [← addResult_toNat, BitVec.ofNat_toNat, BitVec.setWidth_eq]

/-- The sign of a byte on numbers: two's complement, for `omega` (41_flag_rules.md R70). -/
theorem toInt_eq_ite (v : Byte) :
    v.toInt = if 128 ≤ v.toNat then (v.toNat : Int) - 256 else v.toNat := by
  rw [BitVec.toInt_eq_msb_cond, BitVec.msb_eq_decide]
  simp

/-- Two operands of one sign and a result of the other: the signed sum does not fit a byte
(41_flag_rules.md R70); by the signs of both operands. -/
theorem signBits_eq_signedOverflow (a m : Byte) (c : Bool) :
    ((a.getLsbD 7 == m.getLsbD 7) && ((addResult a m c).getLsbD 7 != a.getLsbD 7)) =
      decide (a.toInt + m.toInt + c.toNat < -128 ∨ 127 < a.toInt + m.toInt + c.toNat) := by
  have ha := a.isLt
  have hm := m.isLt
  have hc := c.toNat_le
  rw [bit7_eq_decide, bit7_eq_decide, bit7_eq_decide, addResult_toNat, addTotal, toInt_eq_ite,
    toInt_eq_ite, Bool.eq_iff_iff]
  simp only [Bool.and_eq_true, beq_iff_eq, bne_iff_ne, ne_eq, decide_eq_decide, decide_eq_true_eq]
  split <;> split <;> omega

theorem flags_afterAdd_eq (p : Flags) (a m : Byte) :
    p.afterAdd a m = { p with
      n := decide (128 ≤ addTotal a m p.c % 256), z := decide (addTotal a m p.c % 256 = 0)
      c := decide (255 < addTotal a m p.c)
      v := decide (a.toInt + m.toInt + p.c.toNat < -128 ∨
        127 < a.toInt + m.toInt + p.c.toNat) } := by
  rw [Flags.afterAdd, flags_setNZ_eq, addResult_toNat, signBits_eq_signedOverflow]

/-- ADC and SBC in one equation: the guard of DECIMAL_POLICY, the operand read, then A and the flags
of the addition. -/
theorem addWith_eq (f : Byte → Byte) (src : Source) (s : State) :
    addWith f src s = if s.cfg.decimalPolicy = .refuse ∧ s.p.d = true then .refused .decimalMode
      else .next { afterRead s src with
        a := addResult s.a (f (operandValue s src)) s.p.c
        p := s.p.afterAdd s.a (f (operandValue s src)) } := by
  rw [addWith, operand_eq]
  rfl

/-! ### Subtraction is addition of the one's complement -/

theorem complement_toNat (m : Byte) : (m ^^^ 0xFF#8).toNat = 255 - m.toNat := by
  have hnot : m ^^^ 0xFF#8 = ~~~m := BitVec.xor_allOnes
  rw [hnot, BitVec.toNat_not]

theorem complement_toInt (m : Byte) : (m ^^^ 0xFF#8).toInt = -1 - m.toInt := by
  have hm := m.isLt
  rw [toInt_eq_ite, toInt_eq_ite, complement_toNat]
  split <;> split <;> omega

/-- The sum with the complement is the difference, 256 more (46_ext_arith_logic.md R110). -/
theorem addTotal_complement (a m : Byte) (c : Bool) :
    (addTotal a (m ^^^ 0xFF#8) c : Int) = a.toNat - m.toNat - (1 - c.toNat) + 256 := by
  have hm := m.isLt
  rw [addTotal, complement_toNat]
  omega

theorem addResult_complement (a m : Byte) (c : Bool) :
    addResult a (m ^^^ 0xFF#8) c = BitVec.ofInt 8 (a.toNat - m.toNat - (1 - c.toNat)) := by
  rw [addResult, ← BitVec.ofInt_natCast, addTotal_complement]
  exact (BitVec.ofInt_add _ 256).trans (BitVec.add_zero _)

theorem flags_afterAdd_complement (p : Flags) (a m : Byte) :
    let borrow : Int := 1 - p.c.toNat
    let difference : Int := a.toNat - m.toNat - borrow
    let signed : Int := a.toInt - m.toInt - borrow
    p.afterAdd a (m ^^^ 0xFF#8) = { p with
      n := decide (128 ≤ difference % 256), z := decide (difference % 256 = 0)
      c := decide ((m.toNat : Int) + borrow ≤ a.toNat)
      v := decide (signed < -128 ∨ 127 < signed) } := by
  intro borrow difference signed
  have htotal : (addTotal a (m ^^^ 0xFF#8) p.c : Int) = difference + 256 :=
    addTotal_complement a m p.c
  have hsigned : a.toInt + (m ^^^ 0xFF#8).toInt + p.c.toNat = signed := by
    rw [complement_toInt]
    omega
  have hcarry : 255 < addTotal a (m ^^^ 0xFF#8) p.c ↔ (m.toNat : Int) + borrow ≤ a.toNat := by omega
  have hnegative : 128 ≤ addTotal a (m ^^^ 0xFF#8) p.c % 256 ↔ 128 ≤ difference % 256 := by omega
  have hzero : addTotal a (m ^^^ 0xFF#8) p.c % 256 = 0 ↔ difference % 256 = 0 := by omega
  rw [flags_afterAdd_eq]
  simp only [hnegative, hzero, hcarry, hsigned]

/-! ### Compare and bit test -/

theorem flags_afterCompare_eq (p : Flags) (r m : Byte) :
    p.afterCompare r m = { p with
      c := decide (m.toNat ≤ r.toNat), z := decide (r = m)
      n := decide (128 ≤ (r.toNat + 256 - m.toNat) % 256) } := by
  have hm := m.isLt
  have hdifference : (r - m).toNat = (r.toNat + 256 - m.toNat) % 256 := by
    rw [BitVec.toNat_sub]
    omega
  have hequal : r - m = 0#8 ↔ r = m := sub_eq_zero
  rw [Flags.afterCompare, Flags.setNZ, bit7_eq_decide, hdifference, Bool.beq_eq_decide_eq]
  simp only [hequal]

/-- No common set bit: the AND is 0 (46_ext_arith_logic.md R117). -/
theorem and_eq_zero_iff (a m : Byte) :
    a &&& m = 0#8 ↔ ∀ k : Fin 8, ¬(a.getLsbD k = true ∧ m.getLsbD k = true) := by
  rw [BitVec.eq_of_getLsbD_eq_iff, Fin.forall_iff]
  simp

theorem bit6_eq_decide (v : Byte) : v.getLsbD 6 = decide (64 ≤ v.toNat % 128) := by
  rw [← BitVec.testBit_toNat, Nat.testBit_eq_decide_div_mod_eq, decide_eq_decide]
  omega

theorem flags_afterBit_eq (p : Flags) (a m : Byte) :
    p.afterBit a m = { p with
      z := decide (∀ k : Fin 8, ¬(a.getLsbD k = true ∧ m.getLsbD k = true))
      n := decide (128 ≤ m.toNat), v := decide (64 ≤ m.toNat % 128) } := by
  rw [Flags.afterBit, bit7_eq_decide, bit6_eq_decide, Bool.beq_eq_decide_eq]
  simp only [and_eq_zero_iff]

/-! ### The bitwise operations -/

theorem logicFunction_getLsbD (op : LogicOp) (a m : Byte) (k : Nat) :
    (logicFunction op a m).getLsbD k = logicBit op (a.getLsbD k) (m.getLsbD k) := by
  cases op with
  | and => exact BitVec.getLsbD_and
  | or => exact BitVec.getLsbD_or
  | xor => exact BitVec.getLsbD_xor

end Sys2Proof.Proofs

open Sys2Proof Sys2Proof.Machine Sys2Proof.Safety Sys2Proof.Laws Sys2Proof.Proofs

/-- Settles O42: the addition (`addWith_eq`) with its value and flags on numbers (`addResult_eq`,
`flags_afterAdd_eq`); the formats are the encoder's own rows. -/
theorem addWithCarryResult : Obligations.AddWithCarryResult := by
  refine ⟨fun i src s h => ?_, fun _ => rfl, fun _ => rfl, fun _ => rfl,
    hasF3_of_encode fun _ => rfl, hasF3_of_encode fun _ => rfl, hasF3_of_encode fun _ => rfl,
    fun _ => rfl, fun _ => rfl⟩
  rw [exec_adc h, addWith_eq, addResult_eq, flags_afterAdd_eq]
  rfl

/-- Settles O43: the addition of the one's complement (`addWith_eq`) is the difference
(`addResult_complement`, `flags_afterAdd_complement`). -/
theorem subtractWithBorrowResult : Obligations.SubtractWithBorrowResult := by
  refine ⟨fun i src s h => ?_, fun _ => rfl, fun _ => rfl, fun _ => rfl,
    hasF3_of_encode fun _ => rfl, hasF3_of_encode fun _ => rfl, hasF3_of_encode fun _ => rfl,
    fun _ => rfl, fun _ => rfl⟩
  rw [exec_sbc h, addWith_eq, addResult_complement, flags_afterAdd_complement]

/-- Settles O44: the value is the machine's function, read bit by bit (`logicFunction_getLsbD`). -/
theorem logicResult : Obligations.LogicResult := by
  refine ⟨fun i op src s h => ⟨logicFunction op s.a (operandValue s src),
      fun k _ => logicFunction_getLsbD op _ _ k, ?_⟩,
    -- AND
    fun _ => rfl, fun _ => rfl, fun _ => rfl, hasF3_of_encode fun _ => rfl,
    hasF3_of_encode fun _ => rfl, hasF3_of_encode fun _ => rfl, fun _ => rfl, fun _ => rfl,
    -- ORA
    fun _ => rfl, fun _ => rfl, fun _ => rfl, hasF3_of_encode fun _ => rfl,
    hasF3_of_encode fun _ => rfl, hasF3_of_encode fun _ => rfl, fun _ => rfl, fun _ => rfl,
    -- EOR
    fun _ => rfl, fun _ => rfl, fun _ => rfl, hasF3_of_encode fun _ => rfl,
    hasF3_of_encode fun _ => rfl, hasF3_of_encode fun _ => rfl, fun _ => rfl, fun _ => rfl⟩
  rw [exec_logic h, logic, operand_eq, ← flags_setNZ_eq_flagsNZ]
  rfl

/-- Settles O45: the operand is read (`operand_eq`) and the flags of the comparison are set
(`flags_afterCompare_eq`). -/
theorem compareResult : Obligations.CompareResult := by
  refine ⟨fun i r src s h => ?_,
    -- CMP
    fun _ => rfl, fun _ => rfl, fun _ => rfl, hasF3_of_encode fun _ => rfl,
    hasF3_of_encode fun _ => rfl, hasF3_of_encode fun _ => rfl, fun _ => rfl, fun _ => rfl,
    -- CPX
    fun _ => rfl, fun _ => rfl, hasF3_of_encode fun _ => rfl,
    -- CPY
    fun _ => rfl, fun _ => rfl, hasF3_of_encode fun _ => rfl⟩
  rw [exec_compare h, compareWith, operand_eq, flags_afterCompare_eq]
  rfl

/-- Settles O46: the operand is read and its own bits 7 and 6 set N and V (`flags_afterBit_eq`). -/
theorem bitTestResult : Obligations.BitTestResult := by
  refine ⟨fun i src s h => ?_, fun _ => rfl, hasF3_of_encode fun _ => rfl⟩
  rw [exec_bit h, bitTest, operand_eq, flags_afterBit_eq]
  rfl
end

section
/-! SUPPORT. Read-modify-write and the index steps on numbers (47_ext_shift_incdec.md R118 to
R128). -/

namespace Sys2Proof.Proofs

open Sys2Proof.Machine Sys2Proof.Safety Sys2Proof.Laws

/-! ### The value written and the new carry -/

/-- ROL: the shifted value is even, so putting C in is adding it (47_ext_shift_incdec.md R121). -/
theorem rotateLeft_toNat (v : Byte) (c : Bool) :
    (rotateLeft v c).1.toNat = v.toNat * 2 % 256 + c.toNat := by
  have hshift : (v <<< 1).toNat = 2 ^ 1 * (v.toNat % 128) := by
    rw [BitVec.toNat_shiftLeft, Nat.shiftLeft_eq]
    omega
  have hcarry : ((BitVec.ofBool c).setWidth 8).toNat = c.toNat := by cases c <;> rfl
  rw [rotateLeft, BitVec.toNat_or, hshift, hcarry, ← Nat.two_pow_add_eq_or_of_lt c.toNat_lt]
  omega

/-- ROR: the shifted value is below 128, so putting C into bit 7 is adding 128
(47_ext_shift_incdec.md R122). -/
theorem rotateRight_toNat (v : Byte) (c : Bool) :
    (rotateRight v c).1.toNat = v.toNat / 2 + 128 * c.toNat := by
  have hshift : (v >>> 1).toNat = v.toNat / 2 := BitVec.toNat_ushiftRight v 1
  have hcarry : ((BitVec.ofBool c).setWidth 8 <<< 7).toNat = 2 ^ 7 * c.toNat := by
    cases c <;> rfl
  have hlow : v.toNat / 2 < 2 ^ 7 := by omega
  rw [rotateRight, BitVec.toNat_or, hshift, hcarry, Nat.or_comm,
    ← Nat.two_pow_add_eq_or_of_lt hlow, Nat.add_comm]

theorem rmwFunction_fst_toNat (op : RmwOp) (v : Byte) (c : Bool) :
    (rmwFunction op v c).1.toNat = (rmwValue op v c).1 := by
  cases op with
  | asl => simp [rmwFunction, shiftLeft, rmwValue, Nat.shiftLeft_eq]
  | lsr => simp [rmwFunction, shiftRight, rmwValue, Nat.shiftRight_eq_div_pow]
  | rol => exact rotateLeft_toNat v c
  | ror => exact rotateRight_toNat v c
  | inc => exact BitVec.toNat_add v 1
  | dec => exact (BitVec.toNat_sub v 1).trans (congrArg (· % 256) (Nat.add_comm 255 v.toNat))

theorem rmwFunction_snd (op : RmwOp) (v : Byte) (c : Bool) :
    (rmwFunction op v c).2 = (rmwValue op v c).2 := by
  cases op <;> rfl

theorem rmwFunction_fst (op : RmwOp) (v : Byte) (c : Bool) :
    (rmwFunction op v c).1 = BitVec.ofNat 8 (rmwValue op v c).1 := by
  rw [← rmwFunction_fst_toNat, BitVec.ofNat_toNat, BitVec.setWidth_eq]

theorem flags_afterRmw_eq (p : Flags) (op : RmwOp) (v : Byte) :
    p.afterRmw (rmwFunction op) v = { p with
      z := decide ((rmwValue op v p.c).1 = 0), n := decide (128 ≤ (rmwValue op v p.c).1)
      c := (rmwValue op v p.c).2 } := by
  rw [Flags.afterRmw, flags_setNZ_eq, rmwFunction_fst_toNat, rmwFunction_snd]

/-! ### The frame on memory -/

/-- The byte written is the one that was read; the read, the internal cycle and the write cost one
cycle each (47_ext_shift_incdec.md R118). -/
theorem rmwMem_eq (f : RmwFunction) (m : Mode) (s : State) :
    rmwMem f m s = .next { s with
      mem := s.mem.write (effectiveAddress s m) (f (s.mem.read (effectiveAddress s m)) s.p.c).1
      p := s.p.afterRmw f (s.mem.read (effectiveAddress s m))
      pc := s.pc + BitVec.ofNat 16 (modeBytes m), cyc := s.cyc - 1 - storeCycles m } := by
  have hcyc : s.cyc + 2 - storeCycles m - (1 : Nat) - (1 : Nat) - (1 : Nat) =
      s.cyc - 1 - storeCycles m := by omega
  rw [rmwMem, resolve_writing_state, ← resolve_toNat .writing, ← hcyc]
  rfl

/-! ### The index steps -/

/-- One more or less modulo 256, as an addition on numbers (47_ext_shift_incdec.md R125 to R128). -/
theorem add_ofNat_toNat (v : Byte) (k : Nat) :
    (v + BitVec.ofNat 8 k).toNat = (v.toNat + k) % 256 := by
  rw [BitVec.toNat_add, BitVec.toNat_ofNat, Nat.add_mod_mod]

end Sys2Proof.Proofs

open Sys2Proof Sys2Proof.Machine Sys2Proof.Safety Sys2Proof.Laws Sys2Proof.Proofs

/-- Settles O47: both frames (`rmwA`, `rmwMem_eq`) with the value and the flags of the operation on
numbers (`rmwFunction_fst`, `flags_afterRmw_eq`); the formats are the encoder's own rows. -/
theorem readModifyWriteResult : Obligations.ReadModifyWriteResult := by
  refine ⟨fun i op s h => ?_, fun i op m s h => ?_,
    -- ASL
    rfl, fun _ => rfl, fun _ => rfl, hasF3_of_encode fun _ => rfl, hasF3_of_encode fun _ => rfl,
    -- LSR
    rfl, fun _ => rfl, fun _ => rfl, hasF3_of_encode fun _ => rfl, hasF3_of_encode fun _ => rfl,
    -- ROL
    rfl, fun _ => rfl, fun _ => rfl, hasF3_of_encode fun _ => rfl, hasF3_of_encode fun _ => rfl,
    -- ROR
    rfl, fun _ => rfl, fun _ => rfl, hasF3_of_encode fun _ => rfl, hasF3_of_encode fun _ => rfl,
    -- INC
    fun _ => rfl, fun _ => rfl, hasF3_of_encode fun _ => rfl, hasF3_of_encode fun _ => rfl,
    -- DEC
    fun _ => rfl, fun _ => rfl, hasF3_of_encode fun _ => rfl, hasF3_of_encode fun _ => rfl⟩
  · rw [exec_rmwAcc h, rmwA, rmwFunction_fst, flags_afterRmw_eq]
    rfl
  · rw [exec_rmw h, rmwMem_eq, rmwFunction_fst, flags_afterRmw_eq]

/-- Settles O48: the step is one addition modulo 256 (`exec_indexStep`, `add_ofNat_toNat`), Z and
N of its result (`flags_setNZ_eq`). -/
theorem indexStepResult : Obligations.IndexStepResult := by
  refine ⟨fun i r k s h => ?_, rfl, rfl, rfl, rfl⟩
  dsimp only
  rw [exec_indexStep h, putReg_setNZ, ← flags_setNZ_eq_flagsNZ, flags_setNZ_eq,
    ← add_ofNat_toNat, BitVec.ofNat_toNat, BitVec.setWidth_eq]
  rfl
end

section
/-! SUPPORT. Stack bytes, pulled words and runs of pushes on numbers, and what `exec` answers for
the jumps, the branches, BRK, RTI, and the pushes and pulls of one byte (44_jsr_stack.md R89 to R93,
48_ext_control.md R129 to R141, 49_ext_stack_flags.md R143 to R146). -/

namespace Sys2Proof.Proofs

open Sys2Proof.Machine Sys2Proof.Safety Sys2Proof.Laws

/-! ### Bytes and words read, on numbers -/

theorem joinBytes_eq_ofNat (hi lo : Byte) :
    joinBytes hi lo = BitVec.ofNat 16 (hi.toNat * 256 + lo.toNat) := by
  rw [← joinBytes_toNat, BitVec.ofNat_toNat, BitVec.setWidth_eq]

/-- The stack byte `k` slots below S, inside page 1 (44_jsr_stack.md R89). -/
theorem memRead_stackAddr_sub (s : State) (k : Nat) :
    memRead s (stackAddr (s.sp - BitVec.ofNat 8 k)) = stackByte s (-k) := by
  have haddr : (stackAddr (s.sp - BitVec.ofNat 8 k)).toNat =
      256 + (((s.sp.toNat : Int) + -k) % 256).toNat := by
    rw [stackAddr_toNat, BitVec.toNat_sub, BitVec.toNat_ofNat]
    omega
  rw [memRead, haddr, stackByte]

/-- A pulled word has its high byte above its low byte (44_jsr_stack.md R93). -/
theorem pullWord_value (s : State) : (pullWord s).1 =
    BitVec.ofNat 16 ((stackByte s (-1)).toNat * 256 + (stackByte s (-2)).toNat) := by
  have hhigh : memRead s (stackAddr (s.sp - 1)) = stackByte s (-1) := memRead_stackAddr_sub s 1
  have hlow : memRead s (stackAddr (s.sp - 2)) = stackByte s (-2) := memRead_stackAddr_sub s 2
  rw [pullWord_eq, hhigh, hlow, joinBytes_eq_ofNat]

/-! ### Jumps and branches -/

/-- The high byte of an indirect target comes from the page of its low byte (40_fetch_addressing.md
R63). -/
theorem indirect_eq (w : Addr) (s : State) :
    indirect w s =
      (BitVec.ofNat 16 (wordAt s w.toNat (w.toNat / 256 * 256 + (w.toNat + 1) % 256)),
        { s with pc := s.pc + 2, cyc := s.cyc - 4 }) := by
  have haddr : (joinBytes (highByte w) (lowByte w + 1)).toNat =
      w.toNat / 256 * 256 + (w.toNat + 1) % 256 := by
    rw [joinBytes_toNat, highByte_toNat, BitVec.toNat_add, lowByte_toNat]
    exact congrArg _ (Nat.mod_add_mod w.toNat 256 1)
  have hcyc : s.cyc - 2 - (1 : Nat) - (1 : Nat) = s.cyc - 4 := by omega
  rw [wordAt, ← haddr, ← memRead, ← memRead, ← joinBytes_eq_ofNat, ← hcyc, indirect, pastWord_eq]
  rfl

theorem relative_eq_ofInt (d : Byte) (s : State) :
    (relative d s).1 = BitVec.ofInt 16 (branchTarget s d) := by
  rw [← relative_toNat, BitVec.ofInt_natCast, BitVec.ofNat_toNat, BitVec.setWidth_eq]

/-- The page test of a branch, on numbers (48_ext_control.md R131). -/
theorem pageDiffers_relative_iff (d : Byte) (s : State) :
    pageDiffers (relative d s).1 (s.pc + 1) = true ↔
      branchTarget s d / 256 ≠ ((s.pc.toNat : Int) + 1) % 65536 / 256 := by
  have hnext : ((s.pc + 1).toNat : Int) = ((s.pc.toNat : Int) + 1) % 65536 := by
    rw [BitVec.toNat_add]
    rfl
  rw [pageDiffers_eq, bne_iff_ne, ← relative_toNat, ← hnext]
  omega

theorem branch_taken (d : Byte) (s : State) :
    branch true d s = .next { s with
      pc := BitVec.ofInt 16 (branchTarget s d)
      cyc := s.cyc - 2 -
        (if branchTarget s d / 256 = ((s.pc.toNat : Int) + 1) % 65536 / 256 then 0 else 1) } := by
  have hbranch : branch true d s = .next
      ((if pageDiffers (relative d s).1 (s.pc + 1) then ((pastByte s).charge 1).charge 1
        else (pastByte s).charge 1).setPc (relative d s).1) := rfl
  have hpage := pageDiffers_relative_iff d s
  by_cases hsame : branchTarget s d / 256 = ((s.pc.toNat : Int) + 1) % 65536 / 256
  · have hcyc : s.cyc - 2 - 0 = s.cyc - 1 - (1 : Nat) := by omega
    rw [hbranch, if_neg (fun h => hpage.mp h hsame), relative_eq_ofInt, if_pos hsame, hcyc]
    rfl
  · have hcyc : s.cyc - 2 - 1 = s.cyc - 1 - (1 : Nat) - (1 : Nat) := by omega
    rw [hbranch, if_pos (hpage.mpr hsame), relative_eq_ofInt, if_neg hsame, hcyc]
    rfl

theorem branch_not_taken (d : Byte) (s : State) :
    branch false d s = .next { s with pc := s.pc + 1, cyc := s.cyc - 1 } := rfl

/-! ### What a run of pushes leaves in memory -/

/-- The slots pushed to depend on S modulo 256 alone. -/
theorem pushed_congr (m : Memory) {sp sp' : Nat} (h : sp % 256 = sp' % 256) (bytes : List Byte) :
    pushed m sp bytes = pushed m sp' bytes := by
  induction bytes generalizing m sp sp' with
  | nil => rfl
  | cons v rest ih =>
    rw [pushed, pushed, h]
    exact ih _ (by omega)

theorem pushed_append (m : Memory) (sp : Nat) (bytes more : List Byte) :
    pushed m sp (bytes ++ more) = pushed (pushed m sp bytes) (sp + bytes.length) more := by
  induction bytes generalizing m sp with
  | nil => rfl
  | cons v rest ih =>
    rw [List.cons_append, pushed, pushed, ih, List.length_cons, Nat.add_assoc, Nat.add_comm 1]

/-- Pushes stay in page 1 (44_jsr_stack.md R89). -/
theorem read_pushed_beyond {addr : Nat} (h : 512 ≤ addr) (m : Memory) (sp : Nat)
    (bytes : List Byte) : (pushed m sp bytes).read addr = m.read addr := by
  induction bytes generalizing m sp with
  | nil => rfl
  | cons v rest ih => rw [pushed, ih, read_write_other m v (by omega)]

/-! ### The instructions that push or pull, where they are not refused -/

section
variable {i : Instr} {s : State} (h : ¬StackRefused i s) (k : Result)
include h

theorem pushGuard_of_not_refused (hpulls : pulls i = 0) :
    stackGuard s (pushWraps s (pushes i)) k = k := by
  rw [stackRefused_of_push s hpulls] at h
  exact stackGuard_of_not k h

theorem pullGuard_of_not_refused (hpushes : pushes i = 0) :
    stackGuard s (pullWraps s (pulls i)) k = k := by
  rw [stackRefused_of_pull s hpushes] at h
  exact stackGuard_of_not k h

end

section
variable {s : State}

theorem exec_brk (h : ¬StackRefused .brk s) :
    exec .brk s = .next (enterSoftwareInterrupt (pastByte s)) :=
  pushGuard_of_not_refused h _ pulls_brk

theorem exec_rti (h : ¬StackRefused .rti s) : exec .rti s = .next (returnFromInterrupt s) :=
  pullGuard_of_not_refused h _ pushes_rti

theorem exec_pha (h : ¬StackRefused .pha s) : exec .pha s = .next (pushByte (s.charge 1) s.a) :=
  pushGuard_of_not_refused h _ pulls_pha

theorem exec_php (h : ¬StackRefused .php s) :
    exec .php s = .next (pushByte (s.charge 1) (pushedFlags s.p)) :=
  pushGuard_of_not_refused h _ pulls_php

theorem exec_pla (h : ¬StackRefused .pla s) : exec .pla s =
    .next (((pullByte (s.charge 2)).2.setA (pullByte (s.charge 2)).1).setNZ
      (pullByte (s.charge 2)).1) :=
  pullGuard_of_not_refused h _ pushes_pla

theorem exec_plp (h : ¬StackRefused .plp s) : exec .plp s =
    .next ((pullByte (s.charge 2)).2.setP (s.p.unpack (pullByte (s.charge 2)).1)) :=
  pullGuard_of_not_refused h _ pushes_plp

end

/-- A push after one internal cycle (49_ext_stack_flags.md R143, R145). -/
theorem pushByte_charge (s : State) (v : Byte) :
    pushByte (s.charge 1) v =
      { s with mem := s.mem.write (256 + s.sp.toNat) v, sp := s.sp + 1, cyc := s.cyc - 2 } := by
  have hcyc : s.cyc - (1 : Nat) - 1 = s.cyc - 2 := by omega
  rw [← hcyc, ← stackAddr_toNat]
  rfl

/-- A pull after two internal cycles (49_ext_stack_flags.md R144, R146). -/
theorem pullByte_charge (s : State) :
    pullByte (s.charge 2) = (stackByte s (-1), { s with sp := s.sp - 1, cyc := s.cyc - 3 }) := by
  have hvalue : memRead s (stackAddr (s.sp - 1)) = stackByte s (-1) := memRead_stackAddr_sub s 1
  have hcyc : s.cyc - (2 : Nat) - 1 = s.cyc - 3 := by omega
  rw [← hcyc, ← hvalue]
  rfl

/-- The flag byte PHP and BRK push, on numbers (48_ext_control.md R140). -/
theorem pushedFlags_eq (p : Flags) : pushedFlags p = BitVec.ofNat 8 (flagNumber p true) := by
  obtain ⟨n, v, b, d, i, z, c⟩ := p
  revert n v b d i z c
  decide

/-! ### The software interrupt and its return -/

/-- What BRK pushes: a word and the flag byte (48_ext_control.md R140). -/
theorem pushWord_pushFlags_eq (s : State) (w : Addr) :
    pushByte (pushWord s w) (pushedFlags s.p) = { s with
      mem := pushed s.mem s.sp.toNat
        (wordBytes w.toNat ++ [BitVec.ofNat 8 (flagNumber s.p true)])
      sp := s.sp + 3, cyc := s.cyc - 3 } := by
  have hword : (pushWord s w).sp = s.sp + 2 := by rw [pushWord_eq]
  have hmem : (pushByte (pushWord s w) (pushedFlags s.p)).mem = pushed s.mem s.sp.toNat
      (wordBytes w.toNat ++ [BitVec.ofNat 8 (flagNumber s.p true)]) := by
    rw [pushByte_mem, pushWord_mem, hword, pushed_append, pushedFlags_eq]
    exact pushed_congr _ (Nat.mod_mod _ _) _
  have hsp : s.sp + 2 + 1 = s.sp + 3 := BitVec.add_assoc s.sp 2 1
  have hcyc : s.cyc - 2 - 1 = s.cyc - 3 := Int.sub_sub s.cyc 2 1
  rw [← hmem, ← hsp, ← hcyc, pushByte_eq, pushWord_eq]

/-- The vector at 0xFFFE lies beyond the stack's page, so BRK loads it as it was. -/
theorem memReadWord_brkVector {s t : State} {sp : Nat} {bytes : List Byte}
    (h : t.mem = pushed s.mem sp bytes) :
    memReadWord t 0xFFFE#16 = BitVec.ofNat 16 (wordAt s 0xFFFE 0xFFFF) := by
  have hword : wordAt t 0xFFFE 0xFFFF = wordAt s 0xFFFE 0xFFFF := by
    rw [wordAt, h, read_pushed_beyond (by decide), read_pushed_beyond (by decide), wordAt]
  rw [← hword]
  exact memReadWord_eq_ofNat t 0xFFFE#16

/-- Everything entering the software interrupt does, on numbers. -/
theorem enterSoftwareInterrupt_eq_pushed (s : State) :
    enterSoftwareInterrupt s = { s with
      mem := pushed s.mem s.sp.toNat
        (wordBytes s.pc.toNat ++ [BitVec.ofNat 8 (flagNumber s.p true)])
      sp := s.sp + 3, p := { s.p with i := true }
      pc := BitVec.ofNat 16 (wordAt s 0xFFFE 0xFFFF), cyc := s.cyc - 5 } := by
  have hpushes := pushWord_pushFlags_eq s s.pc
  have hvector := memReadWord_brkVector (congrArg State.mem hpushes)
  rw [enterSoftwareInterrupt_eq, hvector, hpushes]

/-- The flags survive BRK and RTI: I is pulled back, and neither writes P.B (60_exceptions.md
R159). -/
theorem unpack_pushedFlags (p : Flags) :
    Flags.unpack { p with i := true } (pushedFlags p) = p := by
  obtain ⟨n, v, b, d, i, z, c⟩ := p
  revert n v b d i z c
  decide

/-- The three slots of page 1 that BRK pushes to hold what was pushed, wherever S wraps. -/
theorem memRead_pushWord_pushByte {s : State} (h : s.mem.wf = true) (w : Addr) (v : Byte) :
    memRead (pushByte (pushWord s w) v) (stackAddr (s.sp + 2)) = v ∧
      memRead (pushByte (pushWord s w) v) (stackAddr (s.sp + 1)) = highByte w ∧
      memRead (pushByte (pushWord s w) v) (stackAddr s.sp) = lowByte w := by
  have hsp : (pushWord s w).sp = s.sp + 2 := by rw [pushWord_eq]
  have hhigh : stackAddr (s.sp + 1) ≠ stackAddr (pushWord s w).sp := by
    rw [hsp]
    exact mt stackAddr_injective (by bv_omega)
  have hlow : stackAddr s.sp ≠ stackAddr (pushWord s w).sp := by
    rw [hsp]
    exact mt stackAddr_injective (by bv_omega)
  refine ⟨?_, ?_, ?_⟩
  · rw [← hsp]
    exact memRead_pushByte_same (pushWord_wf h w) v
  · rw [memRead_pushByte_other _ v hhigh, memRead_pushWord_high h]
  · rw [memRead_pushByte_other _ v hlow, memRead_pushWord_low h]

/-- The return undoes the entry but for memory and the 10 cycles (60_exceptions.md R159). -/
theorem returnFromInterrupt_enterSoftwareInterrupt {s : State} (h : s.mem.wf = true) :
    returnFromInterrupt (enterSoftwareInterrupt s) =
      { s with mem := (enterSoftwareInterrupt s).mem, cyc := s.cyc - 10 } := by
  obtain ⟨hflags, hhigh, hlow⟩ := memRead_pushWord_pushByte h s.pc (pushedFlags s.p)
  have hentry := enterSoftwareInterrupt_eq_pushed s
  have hsp : (enterSoftwareInterrupt s).sp = s.sp + 3 := by rw [hentry]
  have hread (addr : Addr) : memRead (enterSoftwareInterrupt s) addr =
      memRead (pushByte (pushWord s s.pc) (pushedFlags s.p)) addr :=
    memRead_congr (by rw [enterSoftwareInterrupt_eq]) addr
  have h1 : s.sp + 3 - 1 = s.sp + 2 := by bv_omega
  have h2 : s.sp + 3 - 2 = s.sp + 1 := by bv_omega
  have h3 : s.sp + 3 - 3 = s.sp := BitVec.add_sub_cancel s.sp 3
  have hcyc : s.cyc - 5 - 5 = s.cyc - 10 := Int.sub_sub s.cyc 5 5
  rw [returnFromInterrupt_eq, hread, hread, hread, hsp, h1, h2, h3, hflags, hhigh, hlow,
    joinBytes_highByte_lowByte, hentry, unpack_pushedFlags, hcyc]

end Sys2Proof.Proofs

open Sys2Proof Sys2Proof.Machine Sys2Proof.Safety Sys2Proof.Laws Sys2Proof.Proofs

/-- Settles O51: the word pulled (`exec_rts`) is the two stack bytes (`pullWord_value`). -/
theorem returnFromSubroutineResult : Obligations.ReturnFromSubroutineResult := by
  refine ⟨fun s h => ?_, rfl⟩
  rw [exec_rts h, pullWord_value, BitVec.ofNat_add _ 1]
  rfl

/-- Settles O52: on the named value the branch is taken, with its target, its page test and its
cycles on numbers (`branch_taken`). -/
theorem branchResult : Obligations.BranchResult := by
  refine ⟨fun i f value d s h => ?_, fun _ => rfl, fun _ => rfl, fun _ => rfl, fun _ => rfl,
    fun _ => rfl, fun _ => rfl, fun _ => rfl, fun _ => rfl⟩
  rw [exec_branch h, taken]
  by_cases hflag : getFlag s.p f = value
  · rw [if_pos hflag, beq_iff_eq.mpr hflag, branch_taken]
  · rw [if_neg hflag, beq_eq_false_iff_ne.mpr hflag, branch_not_taken]

/-- Settles O53: past the padding byte, the entry on numbers
(`enterSoftwareInterrupt_eq_pushed`). -/
theorem softwareInterruptEntry : Obligations.SoftwareInterruptEntry := by
  refine ⟨fun s h => ?_, rfl⟩
  have hpc : (s.pc + 1).toNat = (s.pc.toNat + 1) % 65536 := BitVec.toNat_add s.pc 1
  have hcyc : s.cyc - 1 - 5 = s.cyc - 6 := Int.sub_sub s.cyc 1 5
  rw [exec_brk h, enterSoftwareInterrupt_eq_pushed, pastByte_eq, ← hpc, ← hcyc]
  rfl

/-- Settles O54: the three stack bytes on numbers (`returnFromInterrupt_eq`). -/
theorem returnFromInterruptResult : Obligations.ReturnFromInterruptResult := by
  refine ⟨fun s h => ?_, rfl⟩
  have hflags : memRead s (stackAddr (s.sp - 1)) = stackByte s (-1) := memRead_stackAddr_sub s 1
  have hhigh : memRead s (stackAddr (s.sp - 2)) = stackByte s (-2) := memRead_stackAddr_sub s 2
  have hlow : memRead s (stackAddr (s.sp - 3)) = stackByte s (-3) := memRead_stackAddr_sub s 3
  rw [exec_rti h, returnFromInterrupt_eq, hflags, hhigh, hlow, joinBytes_eq_ofNat,
    unpack_eq_pulledFlags]

/-- Settles O49: the indirect target by `indirect_eq`. -/
theorem jumpResult : Obligations.JumpResult := by
  refine ⟨fun w s => ⟨?_, ?_⟩, hasF3_of_encode fun _ => rfl, hasF3_of_encode fun _ => rfl⟩
  · rw [exec_jmpAbs, absolute, pastWord_eq]
    rfl
  · rw [exec_jmpInd, indirect_eq]
    rfl

/-- Settles O55: NOP is the one internal cycle (`exec_nop`, `implied_eq`). -/
theorem noOperationResult : Obligations.NoOperationResult := by
  refine ⟨fun s => ?_, rfl⟩
  rw [exec_nop, implied_eq]

/-- Settles O56: one push after an internal cycle (`pushByte_charge`); the flag byte on numbers by
`pushedFlags_eq`. -/
theorem pushResult : Obligations.PushResult := by
  refine ⟨fun s h => ?_, fun s h => ?_, rfl, rfl⟩
  · rw [exec_pha h, pushByte_charge]
  · rw [exec_php h, pushByte_charge, pushedFlags_eq]

/-- Settles O57: one pull after two internal cycles (`pullByte_charge`). -/
theorem pullResult : Obligations.PullResult := by
  refine ⟨fun s h => ?_, fun s h => ?_, rfl, rfl⟩
  · rw [exec_pla h, pullByte_charge, ← flags_setNZ_eq_flagsNZ]
    rfl
  · rw [exec_plp h, pullByte_charge, unpack_eq_pulledFlags]
    rfl

/-- Settles O58: an internal cycle and the flag (`exec_flag`, `implied_eq`). -/
theorem flagInstructionResult : Obligations.FlagInstructionResult := by
  refine ⟨fun i f value s h => ?_, rfl, rfl, rfl, rfl, rfl, rfl, rfl⟩
  rw [exec_flag h, implied_eq, State.setP]

/-- Settles O60: the bytes BRK pushed fitted, so RTI is not refused, and the return undoes the entry
(`returnFromInterrupt_enterSoftwareInterrupt`). -/
theorem returnUndoesSoftwareInterrupt : Obligations.ReturnUndoesSoftwareInterrupt := by
  intro s t hwf hfits ht
  have hback : ¬StackRefused .rti t :=
    not_stackRefused_pull hfits rfl pushes_rti (exec_keeps ht).cfg
      (sp_of_push (i := .brk) (by decide) ht)
  have hcyc : (pastByte s).cyc - 10 = s.cyc - 11 := Int.sub_sub s.cyc 1 10
  refine ⟨_, exec_rti hback, ?_⟩
  rw [exec_brk hfits] at ht
  cases ht
  rw [returnFromInterrupt_enterSoftwareInterrupt (s := pastByte s) hwf, hcyc]
  rfl
end

section
/-! SUPPORT. The host outside Execute and the loop inside it: every step answers a next state under
the default parameters, the host's operations are not read inside Execute, and a budget of one runs
one slot (42_dispatch_loop.md R78 to R81, 60_exceptions.md R154, R167). -/

namespace Sys2Proof.Proofs

open Sys2Proof.Machine Sys2Proof.Safety Sys2Proof.Laws

/-! ### Completion -/

theorem exec_completes {i : Instr} {s : State} (hstack : ¬StackRefused i s)
    (hdecimal : ¬DecimalRefused i s) : ∃ t, exec i s = .next t := by
  have h := exec_answered i s
  generalize exec i s = result at h
  cases h with
  | completed t _ _ => exact ⟨t, rfl⟩
  | stackWrap hrefused _ => exact absurd hrefused hstack
  | decimalMode _ hrefused => exact absurd hrefused hdecimal

/-- The default parameters refuse nothing (60_exceptions.md R154). -/
theorem exec_completes_of_plain {s : State} (h : PlainConfig s.cfg) (i : Instr) :
    ∃ t, exec i s = .next t := by
  obtain ⟨hoff, hignore⟩ := h
  refine exec_completes ?_ ?_
  · rintro ⟨hon, -⟩
    rw [hoff] at hon
    cases hon
  · rintro ⟨hrefuse, -⟩
    rw [hignore] at hrefuse
    cases hrefuse

/-! ### The host's operations inside Execute -/

/-- Every state is the same state with no host operation to come, displaced. -/
theorem displaced_script (s : State) (ops : List HostOp) :
    Displacement.apply ⟨0, [], ops⟩ { s with script := [] } = { s with script := ops } := by
  simp [Displacement.apply]

/-- With other host operations to come an instruction answers the same but for those. -/
theorem exec_withScript {i : Instr} {s t : State} (ops : List HostOp) (h : exec i s = .next t) :
    exec i { s with script := ops } = .next { t with script := ops } := by
  have hs := exec_displaced ⟨0, [], s.script⟩ { s with script := [] } i
  have hops := exec_displaced ⟨0, [], ops⟩ { s with script := [] } i
  rw [displaced_script] at hs hops
  rw [h] at hs
  cases hu : exec i { s with script := [] } with
  | next u =>
    rw [hu] at hs hops
    have hnone : u.script = [] := (exec_keeps hu).script
    cases hs
    simpa [Displacement.apply, hnone] using hops
  | fault r => cases r
  | refused r =>
    rw [hu] at hs
    cases hs

/-- The loop does not read them either, neither to decode nor to fetch (42_dispatch_loop.md R80). -/
theorem slot_withScript {s u : State} (ops : List HostOp)
    (h : exec (instrAt s) (enterSlot s) = .next u) :
    exec (instrAt { s with script := ops }) (enterSlot { s with script := ops }) =
      .next { u with script := ops } := by
  have hinstr : instrAt { s with script := ops } = instrAt s := rfl
  have hstart : enterSlot { s with script := ops } = { enterSlot s with script := ops } := rfl
  rw [hinstr, hstart, exec_withScript ops h]

end Sys2Proof.Proofs

open Sys2Proof Sys2Proof.Machine Sys2Proof.Safety Sys2Proof.Laws Sys2Proof.Proofs

/-- Settles O5, by the ways a step goes inside Execute: its end sets RUN alone, and a slot does not
read the host's operations (`exec_withScript`). -/
theorem hostActsOnlyOutsideExecute : Obligations.HostActsOnlyOutsideExecute := by
  refine ⟨fun s hout hnone => ?_, fun s t ops hi h => ?_⟩
  · rw [step_outside hout, hostTurn_nil hnone]
  · have hi' : InsideExecute { s with script := ops } := hi
    rcases step_cases h with ⟨hout, -⟩ | ⟨-, hc, rfl⟩ | ⟨-, hc, u, hu, rfl⟩
    · exact absurd hout (not_outside_of_inside hi)
    · refine ⟨rfl, ?_⟩
      rw [step_inside hi', if_pos hc]
      rfl
    · rw [slotEnd_eq]
      refine ⟨(slot_keeps hu).script, ?_⟩
      rw [step_slot hi' hc, slot_withScript ops hu, endSlot, slotEnd_eq]

/-- Settles O26: what is neither refusal is a next state (`exec_completes`), and the default
parameters exclude both. -/
theorem everyInstructionCompletes : Obligations.EveryInstructionCompletes :=
  ⟨fun _ _ => exec_completes, fun i _ h => exec_completes_of_plain h i⟩

/-- Settles O27: the host's turn and the end of Execute answer always, a slot as its instruction
completes. -/
theorem everyStepIsSafe : Obligations.EveryStepIsSafe := by
  intro s h
  rcases outside_or_inside s with hout | hi
  · exact ⟨_, step_outside hout⟩
  · by_cases hc : s.cyc ≤ 0
    · exact ⟨_, budgetExhaustionEndsExecute s hi hc⟩
    · have hstart : PlainConfig (enterSlot s).cfg := h
      obtain ⟨u, hu⟩ := exec_completes_of_plain hstart (instrAt s)
      exact ⟨_, (step_slot hi (not_le.mp hc)).trans (congrArg endSlot hu)⟩

/-- Settles O10: a slot charges at least one cycle (`slot_charged`), so the budget test that follows
it ends Execute. -/
theorem budgetOfOneRunsOneSlot : Obligations.BudgetOfOneRunsOneSlot := by
  intro s t hi hone h
  rcases step_cases h with ⟨hout, -⟩ | ⟨-, hc, -⟩ | ⟨-, -, u, hu, rfl⟩
  · exact absurd hout (not_outside_of_inside hi)
  · omega
  · by_cases hrun : u.run = .halted
    · exact .inl (by rw [if_pos hrun, hrun])
    · rw [if_neg hrun]
      have hspent : u.cyc ≤ 0 := by
        have := (slot_charged hu).1
        omega
      exact .inr ⟨rfl, budgetExhaustionEndsExecute (u.setRun .fetching) (.inl rfl) hspent⟩

/-- Settles O2: the host's turn is the Reset of the state with the remaining operations. -/
theorem hostResetFromAnyState : Obligations.HostResetFromAnyState := by
  intro s rest hout hscript
  have hstep : step s = .next (hostReset { s with script := rest }) := by
    rw [step_outside hout, hostTurn_cons hscript, hostOp]
  exact ⟨⟨_, hstep, rfl, rfl, rfl, rfl, rfl, hostReset_flags _, fun _ => rfl, rfl, rfl, rfl, rfl,
    rfl, rfl⟩, rfl⟩
end
